-- ==== Sys2Proof/Word.lean ====
section
/-! DEFINITION. The word types of ENC (00_scope.md R11, 10_state.md R20). Every value is unsigned (00_scope.md R12). -/

namespace Sys2Proof

/-- A byte of the header buffer, of the tape image and of the cursor (20_memory.md R74). -/
abbrev Byte := BitVec 8

/-- A half-period in microseconds: `PERIOD_W` = 16 bits (00_scope.md R11, 10_state.md R21). -/
abbrev Period := BitVec 16

/-- A baud rate: `BAUD_W` = 16 bits (00_scope.md R11, 10_state.md R39, R47). -/
abbrev Baud := BitVec 16

/-- The 16-bit registers: `CNT` (`CNT_W`), `BLEN`, and the accumulators `HCS`, `FCS` (`CS_W`) (00_scope.md R9, R11). -/
abbrev Word := BitVec 16

/-- A seek position on the byte-source port: `SRC_POS_W` = 32 bits (00_scope.md R11). -/
abbrev SrcPos := BitVec 32

/-- A command code on `cmd_op` (30_encoding.md R90). -/
abbrev CmdOp := BitVec 3

end Sys2Proof
end

