-- ==== Sys2Proof/Config.lean ====
section
/-! DEFINITION. What an implementation of ENC fixes: the constants whose value the spec gives (00_scope.md R9, R11),
the six timing constants it leaves open (00_scope.md R10) and the free values. A constant declared `opaque` has no
body: nothing in Lean can evaluate it, so what is proved holds for every value of it (log 4, 5, 7). -/

namespace Sys2Proof.Config

/-! ### Counts and codes the spec fixes (00_scope.md R9, R11; 93_implementation_defined.md U12) -/

/-- `N_LGAP`: short pulses in the long gap. -/
def nLgap : Nat := 22000
/-- `N_LTM_L`: long pulses opening the leader tapemark. -/
def nLtmL : Nat := 40
/-- `N_LTM_S`: short pulses in the leader tapemark. -/
def nLtmS : Nat := 40
/-- `N_LTM_E`: long pulse closing the leader tapemark. -/
def nLtmE : Nat := 1
/-- `N_HDR`: bytes in the header. An abbreviation, for it bounds the addresses of the header space. -/
abbrev nHdr : Nat := 128
/-- `N_CS`: bytes in an emitted checksum. -/
def nCs : Nat := 2
/-- `N_SGAP`: short pulses in the short gap. -/
def nSgap : Nat := 11000
/-- `N_STM_L`: long pulses opening the trailer tapemark. -/
def nStmL : Nat := 20
/-- `N_STM_S`: short pulses in the trailer tapemark. -/
def nStmS : Nat := 20
/-- `N_STM_E`: long pulse closing the trailer tapemark. -/
def nStmE : Nat := 1
/-- `LEN_OFF`: header offset of the low byte of the body length; the high byte stands at the next offset. -/
def lenOff : Fin nHdr := 18
/-- `CAQ_BAUD`: the rate the CAQ encoder forces into `BAUD`. -/
def caqBaud : Baud := 600
/-- `CAQ_DATA_BITS`: data bits per CAQ byte frame. -/
def caqDataBits : Nat := 8
/-- `CAQ_STOP_BITS`: stop bits per CAQ byte frame. -/
def caqStopBits : Nat := 2
/-- `CAQ_CYCLES`: full wave cycles per CAQ bit. -/
def caqCycles : Nat := 2
/-- The first bit mask of an MZF byte, 0x80 (10_state.md R30). -/
def bmaskFirst : Byte := 0x80
/-- The last bit mask of an MZF byte, 0x01 (10_state.md R30). -/
def bmaskLast : Byte := 0x01
/-- `MZF_HDR_POS`: the tape-image position the MZF header is read from. -/
def mzfHdrPos : SrcPos := 0

/-! ### The six timing constants (00_scope.md R10, log 7)

Each is in `1 .. 65535`, and `T_MARK < T_SPACE`. So that these constraints hold of every value, a constant is computed
from an opaque code that ranges over exactly the values allowed. -/

/-- The opaque code of `T_LU`. -/
opaque codeLU : Fin 65535
/-- The opaque code of `T_LD`. -/
opaque codeLD : Fin 65535
/-- The opaque code of `T_SU`. -/
opaque codeSU : Fin 65535
/-- The opaque code of `T_SD`. -/
opaque codeSD : Fin 65535
/-- The opaque code of `T_SPACE`, which has a smaller constant below it. -/
opaque codeSpace : Fin 65534
/-- The opaque code of `T_MARK`. -/
opaque codeMark : Nat

/-- The value `1 .. 65535` a code stands for. -/
def periodOfCode (c : Fin 65535) : Period := BitVec.ofNat 16 (c.val + 1)

/-- The value `2 .. 65535` of `T_SPACE` a code stands for. -/
def spaceOfCode (c : Fin 65534) : Nat := c.val + 2

/-- The value `1 .. space - 1` of `T_MARK` a code stands for. -/
def markOfCode (space code : Nat) : Nat := 1 + code % (space - 1)

/-- `T_LU`: MZF long pulse, up half. -/
def tLU : Period := periodOfCode codeLU
/-- `T_LD`: MZF long pulse, down half. -/
def tLD : Period := periodOfCode codeLD
/-- `T_SU`: MZF short pulse, up half. -/
def tSU : Period := periodOfCode codeSU
/-- `T_SD`: MZF short pulse, down half. -/
def tSD : Period := periodOfCode codeSD
/-- `T_SPACE`: CAQ space (bit 0) half-period. -/
def tSpace : Period := BitVec.ofNat 16 (spaceOfCode codeSpace)
/-- `T_MARK`: CAQ mark (bit 1) half-period. -/
def tMark : Period := BitVec.ofNat 16 (markOfCode (spaceOfCode codeSpace) codeMark)

/-! ### Free values -/

/-- What byte `i` of `HDR` holds while it is unspecified, in the `n`-th unspecified content
(93_implementation_defined.md U2, U3; log 4). -/
opaque hdrFree : Nat → Nat → Byte
/-- What `HCS` holds after the failed MZF_INIT that began the `n`-th unspecified content (93_implementation_defined.md U2; log 5). -/
opaque hcsFree : Nat → Word
/-- What `BLEN` holds after the failed MZF_INIT that began the `n`-th unspecified content (93_implementation_defined.md U2; log 5). -/
opaque blenFree : Nat → Word
/-- `src_ok` of the free byte source's answer to its `n`-th request (20_memory.md R65; log 1). -/
opaque srcOk : Nat → Bool
/-- `src_data` of the free byte source's answer to its `n`-th request (20_memory.md R65; log 1). -/
opaque srcData : Nat → Byte
/-- What `baud_wdata` carries at the `n`-th event while `baud_we` = 0, which the spec gives no value (10_state.md R42,
20_memory.md R70; log 19). -/
opaque baudWdataFree : Nat → Baud

end Sys2Proof.Config
end

