-- ==== Sys2Proof/Machine/Codes.lean ====
section
/-! DEFINITION. The codes ENC keeps in its registers: stage codes (30_encoding.md R93, R95), hand-off codes
(30_encoding.md R97), and the pulse kinds of `Pulse` (30_encoding.md R96). -/

namespace Sys2Proof.Machine

/-! ### `MSTAGE` codes (30_encoding.md R93) -/

def MzfStage.lgap : BitVec 5 := 0
def MzfStage.ltmL : BitVec 5 := 1
def MzfStage.ltmS : BitVec 5 := 2
def MzfStage.ltmE : BitVec 5 := 3
def MzfStage.hdr1 : BitVec 5 := 4
def MzfStage.hcs1 : BitVec 5 := 5
def MzfStage.hdr2 : BitVec 5 := 6
def MzfStage.hcs2 : BitVec 5 := 7
def MzfStage.sgap : BitVec 5 := 8
def MzfStage.stmL : BitVec 5 := 9
def MzfStage.stmS : BitVec 5 := 10
def MzfStage.stmE : BitVec 5 := 11
def MzfStage.body1 : BitVec 5 := 12
def MzfStage.fcs1 : BitVec 5 := 13
/-- Retained by name, never entered (30_encoding.md R94). -/
def MzfStage.body2 : BitVec 5 := 14
/-- Retained by name, never entered (30_encoding.md R94). -/
def MzfStage.fcs2 : BitVec 5 := 15
def MzfStage.terminal : BitVec 5 := 16

/-! ### `CSTAGE` codes (30_encoding.md R95) -/

def CaqStage.startBit : BitVec 3 := 0
def CaqStage.dataBits : BitVec 3 := 1
def CaqStage.stopBit1 : BitVec 3 := 2
def CaqStage.stopBit2 : BitVec 3 := 3
def CaqStage.done : BitVec 3 := 4

/-! ### Hand-off codes (10_state.md R45, R46; 30_encoding.md R97) -/

def BlockCode.none : BitVec 2 := 0
def BlockCode.mzf : BitVec 2 := 1
def BlockCode.caq : BitVec 2 := 2
def TaskCode.idle : BitVec 2 := 0
def TaskCode.play : BitVec 2 := 1
def TaskCode.eof : BitVec 2 := 2

/-- The kinds of pulse, the argument of `Pulse`; never stored (30_encoding.md R96). -/
inductive PulseKind where
  | short
  | long
  | space
  | mark
deriving DecidableEq, Repr

/-- The 2-bit code of a pulse kind (30_encoding.md R96). -/
def pulseCode : PulseKind → BitVec 2
  | .short => 0b00
  | .long => 0b01
  | .space => 0b10
  | .mark => 0b11

/-- The source selector of the byte cursor: a function of the stage, not a register (41_byte_cursor.md R130). -/
inductive ByteSource where
  | header
  | headerChecksum
  | body
  | bodyChecksum
deriving DecidableEq, Repr

end Sys2Proof.Machine
end

