-- ==== Sys2Proof/Machine/State.lean ====
section
/-! DEFINITION. The state of the machine: the registers of ENC (10_state.md R20, structure `Enc`), the state outside ENC
that its rules touch (10_state.md R47, R48), and three fields of the model's own (log 6, 8, 9). -/

namespace Sys2Proof.Machine

/-- The header space as a list of (address, byte) pairs, addresses strictly rising. An address with no pair has no
specified content (10_state.md R38; log 4). -/
abbrev Memory := List Host.Cell

/-- The registers of ENC: exactly the table of 10_state.md R20. A one-bit register is a Bool, 1 being true. -/
structure Enc where
  /-- `PERIOD` (R21). -/
  period : Period
  /-- `PHALF` (R22): the next half is the down half. -/
  phalf : Bool
  /-- `MSTAGE` (R23). -/
  mstage : BitVec 5
  /-- `CSTAGE` (R24). -/
  cstage : BitVec 3
  /-- `CUR` (R27). -/
  cur : Byte
  /-- `LOADED` (R28). -/
  loaded : Bool
  /-- `LEAD` (R29). -/
  lead : Bool
  /-- `BMASK` (R30). -/
  bmask : Byte
  /-- `BIDX` (R31). -/
  bidx : BitVec 3
  /-- `CCYC` (R32). -/
  ccyc : Bool
  /-- `HCS` (R34). -/
  hcs : Word
  /-- `FCS` (R35). -/
  fcs : Word
  /-- `BLEN` (R36). -/
  blen : Word
  /-- `CNT` (R37). -/
  cnt : Word
  /-- `HDR[0..127]` (R38). -/
  hdr : Memory
  /-- `SAVED_BAUD` (R39). -/
  savedBaud : Baud
  /-- `OVR` (R40). -/
  ovr : Bool
  /-- `BLOCK_ID` (R45). -/
  blockId : BitVec 2
  /-- `TASK` (R46). -/
  task : BitVec 2
deriving DecidableEq, Repr

/-- One answer on the byte-source port: `src_ok`, and `src_data` where it counts (10_state.md R42). -/
structure SrcAnswer where
  ok : Bool
  data : Byte
deriving DecidableEq, Repr

/-- The state of the byte source (10_state.md R48; log 1). -/
inductive Source where
  /-- The reference source: image `IMG`, position `SRC_POS`, `SEEK_OK` (20_memory.md R66). -/
  | image (img : List Byte) (pos : Nat) (seekOk : Bool)
  /-- The general source of 20_memory.md R65: it gives the answers of the script, one a request, and after them the
  free answers of Config; `asked` counts the requests. -/
  | oracle (script : List SrcAnswer) (asked : Nat)
deriving DecidableEq, Repr

/-- The two conditions (60_exceptions.md R250). -/
inductive Condition where
  | storageAccessFailure
  | streamExhausted
deriving DecidableEq, Repr

/-- What the trace records: the requests on the ports and the conditions raised (20_memory.md R62, R70;
60_exceptions.md R251). -/
inductive Event where
  /-- A SEEK to a position and whether it succeeded (20_memory.md R63). -/
  | seek (pos : SrcPos) (ok : Bool)
  /-- A READ and the byte it gave, if any (20_memory.md R64). -/
  | read (answer : Option Byte)
  /-- A read of `BAUD` (20_memory.md R70). -/
  | baudRead (v : Baud)
  /-- A write of `BAUD` (20_memory.md R70). -/
  | baudWrite (v : Baud)
  /-- `raise` of a condition (60_exceptions.md R251). -/
  | raised (c : Condition)
deriving DecidableEq, Repr

/-- What the host does between operations (45_session.md R237, 10_state.md R42; log 8). -/
inductive HostInput where
  /-- Presents a command code with `cmd_valid` = 1 (30_encoding.md R90). -/
  | command (op : CmdOp)
  /-- Asserts `rst` (70_reset_and_hazards.md R280). -/
  | reset
  /-- Writes the shared `BAUD` (10_state.md R47). -/
  | setBaud (v : Baud)
  /-- Opens, positions or reads the byte source, which stands so afterwards (70_reset_and_hazards.md R284, R286, R294). -/
  | setSource (src : Source)
deriving DecidableEq, Repr

/-- The state of the machine. -/
structure State where
  /-- ENC's registers (10_state.md R20). -/
  enc : Enc
  /-- `BAUD`, outside ENC (10_state.md R47). -/
  baud : Baud
  /-- The byte source's own state, outside ENC (10_state.md R48). -/
  source : Source
  /-- The model's own: what the host does next, oldest first (log 8). -/
  inputs : List HostInput
  /-- The model's own: requests made and conditions raised, newest first (log 9). -/
  trace : List Event
  /-- The model's own: how often `HDR` has become unspecified; the free values are applied to it (log 6). -/
  freeCtr : Nat
deriving DecidableEq, Repr

/-- Why the machine stops with a fault: never. 60_exceptions.md R268: "nothing inside ENC; the two §7 conditions are
ordinary, fully specified transitions, not faults". Safe. -/
inductive Fault where
deriving DecidableEq, Repr

/-- Why the machine refuses an instruction. -/
inductive Refusal where
  /-- Raised by no arm of `exec`: every row of the opcode table has its meaning. Safe. -/
  | notModelled (mnemonic : String)
deriving DecidableEq, Repr

/-- The registers after reset (10_state.md R51). `HDR` is not reset: nothing of it is specified. -/
def Enc.reset : Enc where
  period := 0
  phalf := false
  mstage := MzfStage.terminal
  cstage := CaqStage.done
  cur := 0
  loaded := false
  lead := false
  bmask := 0x00
  bidx := 0
  ccyc := false
  hcs := 0
  fcs := 0
  blen := 0
  cnt := 0
  hdr := []
  savedBaud := 0
  ovr := false
  blockId := BlockCode.none
  task := TaskCode.idle

/-- The machine right after power-up and reset: ENC's registers as 10_state.md R51 says; outside ENC, where the spec
gives no value, `BAUD` 0 (DESIGN CHOICE, log 3) and a byte source that is not open, which answers every request with
fail (DESIGN CHOICE, log 2); no input, no event (log 6, 8, 9). -/
def State.reset : State where
  enc := Enc.reset
  baud := 0
  source := .image [] 0 false
  inputs := []
  trace := []
  freeCtr := 0

end Sys2Proof.Machine
end

