-- ==== Sys2Proof/Machine/Memory.lean ====
section
/-! DEFINITION. The header space as a list of cells in one canonical form (20_memory.md R60, R68): addresses strictly
rising, each below 128. What an address with no cell reads as is `Memory.unspecified`, once. -/

namespace Sys2Proof.Machine

/-- Addresses strictly rise from `lo` on and stay below `N_HDR`. -/
def Memory.risingFrom : Nat → Memory → Bool
  | _, [] => true
  | lo, (a, _) :: m => decide (lo ≤ a) && decide (a < Config.nHdr) && Memory.risingFrom (a + 1) m

/-- The canonical form. -/
def Memory.wf (m : Memory) : Bool := Memory.risingFrom 0 m

/-- The specified content of an address, if it has one. -/
def Memory.lookup : Memory → Nat → Option Byte
  | [], _ => none
  | (a, b) :: m, i => if i = a then some b else Memory.lookup m i

/-- The cells with `i` holding `b`, in canonical form where they were. -/
def Memory.insert : Memory → Nat → Byte → Memory
  | [], i, b => [(i, b)]
  | (a, c) :: m, i, b =>
    if i < a then (i, b) :: (a, c) :: m
    else if i = a then (i, b) :: m
    else (a, c) :: Memory.insert m i b

/-- What an address with no specified content reads as: a free byte of the present unspecified content
(93_implementation_defined.md U2, U3; log 4). -/
def Memory.unspecified (freeCtr i : Nat) : Byte := Config.hdrFree freeCtr i

/-- `MemRead(i, 1)` = `HDR[i]` (20_memory.md R68). -/
def memRead (s : State) (i : Fin Config.nHdr) : Byte :=
  (Memory.lookup s.enc.hdr i.val).getD (Memory.unspecified s.freeCtr i.val)

/-- `MemWrite(i, 1, b)`: `HDR[i] <- b` (20_memory.md R68). -/
def memWrite (i : Fin Config.nHdr) (b : Byte) (s : State) : State :=
  { s with enc := { s.enc with hdr := Memory.insert s.enc.hdr i.val b } }

/-- The bytes `HDR[0] .. HDR[127]` in ascending order. -/
def headerBytes (s : State) : List Byte :=
  (List.range Config.nHdr).map fun i => memRead s (Fin.ofNat Config.nHdr i)

end Sys2Proof.Machine
end

