-- ==== Sys2Proof/Machine/Ops.lean ====
section
/-! DEFINITION. The named operations every meaning is built from: updates of the state's fields, requests on the
byte-source and settings ports, raising a condition and entering a terminal state. -/

namespace Sys2Proof.Machine

/-! ### Updates of one field of State -/

/-- ENC's registers become `e`. -/
def State.setEnc (e : Enc) (s : State) : State := { s with enc := e }

/-- ENC's registers go through `f`; nothing outside ENC changes. -/
def State.mapEnc (f : Enc → Enc) (s : State) : State := { s with enc := f s.enc }

/-- `BAUD` becomes `v`. -/
def State.setBaud (v : Baud) (s : State) : State := { s with baud := v }

/-- The byte source becomes `src`. -/
def State.setSource (src : Source) (s : State) : State := { s with source := src }

/-- What the host does next becomes `is`. -/
def State.setInputs (is : List HostInput) (s : State) : State := { s with inputs := is }

/-- The trace records one more event. -/
def State.addEvent (ev : Event) (s : State) : State := { s with trace := ev :: s.trace }

/-- `HDR` becomes unspecified: no address has a specified content, and a fresh unspecified content begins (log 4). -/
def State.forgetHeader (s : State) : State :=
  { s with enc := { s.enc with hdr := [] }, freeCtr := s.freeCtr + 1 }

/-! ### The byte-source port (20_memory.md R62 to R66) -/

/-- How a source answers SEEK, and the source afterwards. -/
def Source.seek (pos : SrcPos) : Source → Bool × Source
  | .image img p seekOk =>
    if seekOk && decide (pos.toNat ≤ img.length) then (true, .image img pos.toNat seekOk) else (false, .image img p seekOk)
  | .oracle (a :: script) asked => (a.ok, .oracle script (asked + 1))
  | .oracle [] asked => (Config.srcOk asked, .oracle [] (asked + 1))

/-- How a source answers READ, and the source afterwards. A READ that fails leaves the reference source where it stands. -/
def Source.read : Source → Option Byte × Source
  | .image img p seekOk =>
    match img[p]? with
    | some b => (some b, .image img (p + 1) seekOk)
    | none => (none, .image img p seekOk)
  | .oracle (a :: script) asked => (if a.ok then some a.data else none, .oracle script (asked + 1))
  | .oracle [] asked => (if Config.srcOk asked then some (Config.srcData asked) else none, .oracle [] (asked + 1))

/-- `SrcSeek(pos)` (20_memory.md R63): whether the source answers ok. -/
def srcSeek (pos : SrcPos) (s : State) : Bool × State :=
  ((s.source.seek pos).1, (s.setSource (s.source.seek pos).2).addEvent (.seek pos (s.source.seek pos).1))

/-- `SrcRead()` (20_memory.md R64): the byte, or none for `fail`. -/
def srcRead (s : State) : Option Byte × State :=
  (s.source.read.1, (s.setSource s.source.read.2).addEvent (.read s.source.read.1))

/-! ### The settings port (20_memory.md R70) -/

/-- `BaudRead()`. -/
def baudRead (s : State) : Baud × State := (s.baud, s.addEvent (.baudRead s.baud))

/-- `BaudWrite(v)`. -/
def baudWrite (v : Baud) (s : State) : State := (s.setBaud v).addEvent (.baudWrite v)

/-- `BaudRestore()` (44_caq.md R203): undo the override if it is in force. -/
def baudRestore (s : State) : State :=
  if s.enc.ovr then (baudWrite s.enc.savedBaud s).mapEnc fun e => { e with ovr := false } else s

/-! ### Conditions and terminal entry: ENC's exceptions (60_exceptions.md R250 to R260)

There is no return from a terminal state: only an INIT leaves it (60_exceptions.md R260). -/

/-- The label code of a condition in a trace; 0 stands for none (60_exceptions.md R254). -/
def conditionLabel : Option Condition → Nat
  | none => 0
  | some .storageAccessFailure => 1
  | some .streamExhausted => 2

/-- `raise <Condition>`: names the event for the trace and transfers control nowhere (60_exceptions.md R251). -/
def raise (c : Condition) (s : State) : State := s.addEvent (.raised c)

/-- The two protocol encoders (00_scope.md R1). -/
inductive Encoder where
  | mzf
  | caq
deriving DecidableEq, Repr

/-- Terminal entry on a condition (60_exceptions.md R258): nothing is saved; the stage becomes terminal, `PERIOD` 0 and
`TASK` EOF; `BLOCK_ID` is kept. The CAQ encoder restores `BAUD` before `TASK` is written (44_caq.md R206). -/
def enterTerminal : Encoder → State → State
  | .mzf, s => s.mapEnc fun e => { e with mstage := MzfStage.terminal, period := 0, task := TaskCode.eof }
  | .caq, s =>
    (baudRestore (s.mapEnc fun e => { e with cstage := CaqStage.done })).mapEnc fun e =>
      { e with task := TaskCode.eof, period := 0 }

/-- `TerminalTick()` (43_mzf.md R189): no other register changes. -/
def terminalTick (e : Enc) : Enc := { e with period := 0, task := TaskCode.eof }

/-- `DoneTick()` (44_caq.md R214): no other register changes. -/
def doneTick (e : Enc) : Enc := { e with period := 0, task := TaskCode.eof }

/-- `GoTo(n)` (43_mzf.md R162): the stage transition with its entry actions. -/
def goTo (n : BitVec 5) (e : Enc) : Enc :=
  { e with
    mstage := n
    cnt := 0
    fcs := if n = MzfStage.body1 then 0 else e.fcs
    task := if n = MzfStage.terminal then TaskCode.eof else e.task }

end Sys2Proof.Machine
end

