-- ==== Sys2Proof/Machine/Operands.lean ====
section
/-! DEFINITION. What an operation works on: the durations of a pulse kind (40_pulse.md R120), the pulse kinds of data
bits (30_encoding.md R96), and every value ENC assembles from pieces (30_encoding.md R104). Nothing is sign-extended. -/

namespace Sys2Proof.Machine

/-- `Up(k)` (40_pulse.md R120). -/
def up : PulseKind → Period
  | .short => Config.tSU
  | .long => Config.tLU
  | .space => Config.tSpace
  | .mark => Config.tMark

/-- `Down(k)` (40_pulse.md R120). -/
def down : PulseKind → Period
  | .short => Config.tSD
  | .long => Config.tLD
  | .space => Config.tSpace
  | .mark => Config.tMark

/-- "pulse kind long=1/short=0" (30_encoding.md R99). -/
def mzfKind (bit : Bool) : PulseKind := if bit then .long else .short

/-- A bit valued 1 is a mark, a bit valued 0 a space (44_caq.md R200). -/
def caqKind (bit : Bool) : PulseKind := if bit then .mark else .space

/-- `BLEN` = `HDR[19] ++ HDR[18]`: little-endian (20_memory.md R71). -/
def bodyLength (s : State) : Word := memRead s (Config.lenOff + 1) ++ memRead s Config.lenOff

/-- `X[15:8]` (20_memory.md R72). -/
def highByte (x : Word) : Byte := x.extractLsb' 8 8

/-- `X[7:0]` (20_memory.md R72). -/
def lowByte (x : Word) : Byte := x.extractLsb' 0 8

/-- Byte number `CNT` of a checksum: first the high byte, then the low byte, then none (41_byte_cursor.md R130, R131). -/
def checksumByte (x cnt : Word) : Option Byte :=
  if cnt = 0 then some (highByte x) else if cnt = 1 then some (lowByte x) else none

/-- The MZF data bit `(CUR & BMASK) != 0` (30_encoding.md R104 c). -/
def mzfDataBit (e : Enc) : Bool := e.cur &&& e.bmask != 0

/-- The CAQ data bit `CUR[BIDX]` (30_encoding.md R104 d). -/
def caqDataBit (e : Enc) : Bool := e.cur.getLsbD e.bidx.toNat

/-- `CaqBit()` in the stage `st` (44_caq.md R201). -/
def caqBit (st : BitVec 3) (e : Enc) : Bool :=
  if st = CaqStage.startBit then false else if st = CaqStage.dataBits then caqDataBit e else true

/-- The number of bytes a source of the cursor can give in its stage (41_byte_cursor.md R130). -/
def byteLimit : ByteSource → Enc → Word
  | .header, _ => BitVec.ofNat 16 Config.nHdr
  | .headerChecksum, _ => BitVec.ofNat 16 Config.nCs
  | .body, e => e.blen
  | .bodyChecksum, _ => BitVec.ofNat 16 Config.nCs

/-- One row of `MZF_TABLE` (30_encoding.md R93): type, arg, count and next of a stage. -/
inductive StageRow where
  /-- Pulse-counted: kind, count, next. -/
  | pulses (k : PulseKind) (count : Nat) (next : BitVec 5)
  /-- Byte-producing: source (which fixes the limit), next. -/
  | bytes (src : ByteSource) (next : BitVec 5)
  /-- Terminal, and every code that behaves as terminal (30_encoding.md R107). -/
  | terminal
deriving DecidableEq, Repr

/-- `MZF_TABLE` (30_encoding.md R93). -/
def mzfTable (st : BitVec 5) : StageRow :=
  match st.toNat with
  | 0 => .pulses .short Config.nLgap MzfStage.ltmL
  | 1 => .pulses .long Config.nLtmL MzfStage.ltmS
  | 2 => .pulses .short Config.nLtmS MzfStage.ltmE
  | 3 => .pulses .long Config.nLtmE MzfStage.hdr1
  | 4 => .bytes .header MzfStage.hcs1
  | 5 => .bytes .headerChecksum MzfStage.hdr2
  | 6 => .bytes .header MzfStage.hcs2
  | 7 => .bytes .headerChecksum MzfStage.sgap
  | 8 => .pulses .short Config.nSgap MzfStage.stmL
  | 9 => .pulses .long Config.nStmL MzfStage.stmS
  | 10 => .pulses .short Config.nStmS MzfStage.stmE
  | 11 => .pulses .long Config.nStmE MzfStage.body1
  | 12 => .bytes .body MzfStage.fcs1
  | 13 => .bytes .bodyChecksum MzfStage.terminal
  | _ => .terminal

end Sys2Proof.Machine
end

