-- ==== Sys2Proof/Machine/Flags.lean ====
section
/-! DEFINITION. The one-bit registers and the predicates over the protocol position (10_state.md R33): what sets and
clears `PHALF`, `LOADED`, `LEAD`, `CCYC`, `OVR`, and the tests the tick rules make. ENC has no condition codes. -/

namespace Sys2Proof.Machine

/-- What `Pulse` returns: true exactly on the call that emits the down half (40_pulse.md R121). -/
def pulseCompletes (e : Enc) : Bool := e.phalf

/-- The pulse now completing is the `n`-th of its stage: `CNT + 1 == N`, a 16-bit compare (43_mzf.md R163). -/
def lastPulse (n : Nat) (e : Enc) : Bool := e.cnt + 1 == BitVec.ofNat 16 n

/-- The data pulse now completing is the 8th: `BMASK == 0x01` (41_byte_cursor.md R134). -/
def lastDataPulse (e : Enc) : Bool := e.bmask == Config.bmaskLast

/-- The wave cycle now completing is the last of the CAQ bit (44_caq.md R208): `CCYC` counts the cycles before it. -/
def lastCycle (e : Enc) : Bool := e.ccyc.toNat + 1 == Config.caqCycles

/-- The MZF encoder is live: its stage is one that transmits (10_state.md R50 item 3). -/
def mzfLive (e : Enc) : Bool := e.mstage != MzfStage.terminal

/-- The CAQ encoder is live: `CSTAGE` below 4 (44_caq.md R205). -/
def caqLive (e : Enc) : Bool := decide (e.cstage.toNat < CaqStage.done.toNat)

/-- `PHALF`, `LOADED` cleared, as both INITs and ABANDON do (10_state.md R33). -/
def clearCursor (e : Enc) : Enc := { e with phalf := false, loaded := false }

/-- A byte is loaded into the MZF cursor: `LOADED` set, `LEAD` cleared, `BMASK` at the first bit (41_byte_cursor.md R133). -/
def loadMzfByte (b : Byte) (e : Enc) : Enc :=
  { e with cur := b, loaded := true, lead := false, bmask := Config.bmaskFirst, cnt := e.cnt + 1 }

/-- A byte is loaded into the CAQ cursor: `LOADED` set, `CCYC` cleared, `BIDX` at the first bit, the frame at its start
bit (44_caq.md R206). -/
def loadCaqByte (b : Byte) (e : Enc) : Enc :=
  { e with cur := b, loaded := true, cstage := CaqStage.startBit,
           bidx := BitVec.ofNat 3 (Config.caqDataBits - 1), ccyc := false }

end Sys2Proof.Machine
end

