-- ==== Sys2Proof/Machine/Pulse.lean ====
section
/-! DEFINITION. The pulse primitive (40_pulse.md) and the four pulse-kind rows of the opcode table. -/

namespace Sys2Proof.Machine

/-- `Pulse(k)` (40_pulse.md R121): sets the next half-period and flips `PHALF`. What it returns is `pulseCompletes` of
the registers before the call. -/
def pulse (k : PulseKind) (e : Enc) : Enc :=
  if e.phalf then { e with period := down k, phalf := false } else { e with period := up k, phalf := true }

/-- PULSE.SHORT: `Pulse(SHORT)` (40_pulse.md R120, R121). -/
def execPulseShort (s : State) : Host.Outcome State Fault Refusal := .next (s.mapEnc (pulse .short))

/-- PULSE.LONG: `Pulse(LONG)` (40_pulse.md R120, R121). -/
def execPulseLong (s : State) : Host.Outcome State Fault Refusal := .next (s.mapEnc (pulse .long))

/-- PULSE.SPACE: `Pulse(SPACE)` (40_pulse.md R120, R121). -/
def execPulseSpace (s : State) : Host.Outcome State Fault Refusal := .next (s.mapEnc (pulse .space))

/-- PULSE.MARK: `Pulse(MARK)` (40_pulse.md R120, R121). -/
def execPulseMark (s : State) : Host.Outcome State Fault Refusal := .next (s.mapEnc (pulse .mark))

end Sys2Proof.Machine
end

