-- ==== Sys2Proof/Machine/Caq.lean ====
section
/-! DEFINITION. The CAQ bit encoder (44_caq.md): CAQ_INIT, CAQ_TICK and one meaning for each CAQ stage row. A stage
row's meaning is the tick of its stage; CAQ_TICK selects the row by `CSTAGE` (log 13). -/

namespace Sys2Proof.Machine

/-- The registers CAQ_INIT writes beside the override (44_caq.md R202). -/
def caqInitRegisters (e : Enc) : Enc :=
  { clearCursor e with
    blockId := BlockCode.caq
    task := TaskCode.play
    mstage := MzfStage.terminal
    cstage := CaqStage.startBit
    period := 0
    bidx := BitVec.ofNat 3 (Config.caqDataBits - 1)
    ccyc := false }

/-- The save of the host's rate: only when it is not saved already (44_caq.md R202). -/
def saveBaud (s : State) : State :=
  if s.enc.ovr then s
  else (baudRead s).2.mapEnc fun e => { e with savedBaud := (baudRead s).1, ovr := true }

/-- CAQ_INIT (44_caq.md R202): the save is conditional, the write of 600 is not (90_conflicts.md C2). -/
def execCaqInit (s : State) : Host.Outcome State Fault Refusal :=
  .next ((baudWrite Config.caqBaud (saveBaud s)).mapEnc caqInitRegisters)

/-- What `CaqLoad` returns, with the state it leaves; `stage` is the stage whose bit is sent now. -/
inductive CaqLoad where
  | loaded (stage : BitVec 3) (s : State)
  | exhausted (s : State)
deriving DecidableEq, Repr

/-- StreamExhausted ends the session (44_caq.md R206, 60_exceptions.md R253): the CAQ encoder enters its terminal state. -/
def caqExhausted (s : State) : State := enterTerminal .caq (raise .streamExhausted s)

/-- `CaqLoad()` in the stage `st` (44_caq.md R206): acts only when no byte is in progress; a fresh byte begins its start bit. -/
def caqLoad (st : BitVec 3) (s : State) : CaqLoad :=
  if s.enc.loaded then .loaded st s
  else
    match srcRead s with
    | (none, s') => .exhausted (caqExhausted s')
    | (some b, s') => .loaded CaqStage.startBit (s'.mapEnc (loadCaqByte b))

/-- `CaqAdvance()` from the stage `st` (44_caq.md R207). -/
def caqAdvance (st : BitVec 3) (e : Enc) : Enc :=
  if st = CaqStage.startBit then { e with cstage := CaqStage.dataBits }
  else if st = CaqStage.dataBits then
    if e.bidx = 0 then { e with cstage := CaqStage.stopBit1 } else { e with bidx := e.bidx - 1 }
  else if st = CaqStage.stopBit1 then { e with cstage := CaqStage.stopBit2 }
  else { e with loaded := false }

/-- `CaqEmit()` in the stage `st` (44_caq.md R208): one half-period; a bit is two full cycles. -/
def caqEmit (st : BitVec 3) (e : Enc) : Enc :=
  let e' := pulse (caqKind (caqBit st e)) e
  if pulseCompletes e then
    if lastCycle e then caqAdvance st { e' with ccyc := false } else { e' with ccyc := true }
  else e'

/-- The tick of a live stage `st` (44_caq.md R205): load if needed, then emit. -/
def caqStageTick (st : BitVec 3) (s : State) : State :=
  match caqLoad st s with
  | .exhausted s' => s'
  | .loaded st' s' => s'.mapEnc (caqEmit st')

/-- CAQ_TICK.START_BIT (44_caq.md R209). -/
def execCaqStartBit (s : State) : Host.Outcome State Fault Refusal := .next (caqStageTick CaqStage.startBit s)

/-- CAQ_TICK.DATA_BITS (44_caq.md R210). -/
def execCaqDataBits (s : State) : Host.Outcome State Fault Refusal := .next (caqStageTick CaqStage.dataBits s)

/-- CAQ_TICK.STOP_BIT_1 (44_caq.md R211). -/
def execCaqStopBit1 (s : State) : Host.Outcome State Fault Refusal := .next (caqStageTick CaqStage.stopBit1 s)

/-- CAQ_TICK.STOP_BIT_2 (44_caq.md R212). -/
def execCaqStopBit2 (s : State) : Host.Outcome State Fault Refusal := .next (caqStageTick CaqStage.stopBit2 s)

/-- CAQ_TICK.DONE (44_caq.md R214). -/
def execCaqDone (s : State) : Host.Outcome State Fault Refusal := .next (s.mapEnc doneTick)

/-- CAQ_TICK.RESERVED_101: `DoneTick()` (44_caq.md R213). -/
def execCaqReserved101 (s : State) : Host.Outcome State Fault Refusal := .next (s.mapEnc doneTick)

/-- CAQ_TICK.RESERVED_11x: `DoneTick()` (44_caq.md R213). -/
def execCaqReserved11x (s : State) : Host.Outcome State Fault Refusal := .next (s.mapEnc doneTick)

/-- CAQ_TICK (44_caq.md R205): the stage operation that the code in `CSTAGE` selects (30_encoding.md R92, R112). -/
def execCaqTick (s : State) : Host.Outcome State Fault Refusal :=
  match s.enc.cstage.toNat with
  | 0 => execCaqStartBit s
  | 1 => execCaqDataBits s
  | 2 => execCaqStopBit1 s
  | 3 => execCaqStopBit2 s
  | 4 => execCaqDone s
  | 5 => execCaqReserved101 s
  | _ => execCaqReserved11x s

end Sys2Proof.Machine
end

