-- ==== Sys2Proof/Machine/Checksum.lean ====
section
/-! DEFINITION. The population-count checksum (42_checksum.md). -/

namespace Sys2Proof.Machine

/-- `popcount8(b)`: the number of bits set to 1 (42_checksum.md R151). -/
def popcount8 (b : Byte) : Nat :=
  (b.getLsbD 0).toNat + (b.getLsbD 1).toNat + (b.getLsbD 2).toNat + (b.getLsbD 3).toNat +
  (b.getLsbD 4).toNat + (b.getLsbD 5).toNat + (b.getLsbD 6).toNat + (b.getLsbD 7).toNat

/-- `Checksum(s)`: the sum of the population counts modulo 65536 (42_checksum.md R150). -/
def checksum (bs : List Byte) : Word := BitVec.ofNat 16 (bs.map popcount8).sum

/-- `CKADD`: `FCS +_16 popcount8(b)` (42_checksum.md R153). Wraps silently (42_checksum.md R155). -/
def ckAdd (acc : Word) (b : Byte) : Word := acc + BitVec.ofNat 16 (popcount8 b)

/-- `CKHDR`: the checksum of all 128 header bytes (42_checksum.md R152). -/
def ckHdr (s : State) : Word := checksum (headerBytes s)

end Sys2Proof.Machine
end

