-- ==== Sys2Proof/Machine/Cursor.lean ====
section
/-! DEFINITION. The MZF byte cursor (41_byte_cursor.md). -/

namespace Sys2Proof.Machine

/-- `NextByte(s)` for the stage's source (41_byte_cursor.md R131). In the body the count is tested before a READ is
made, and a READ that fails raises StreamExhausted (60_exceptions.md R253, R257). -/
def nextByte : ByteSource → State → Option Byte × State
  | .header, s =>
    (if s.enc.cnt.toNat < Config.nHdr then some (memRead s (Fin.ofNat Config.nHdr s.enc.cnt.toNat)) else none, s)
  | .headerChecksum, s => (checksumByte s.enc.hcs s.enc.cnt, s)
  | .bodyChecksum, s => (checksumByte s.enc.fcs s.enc.cnt, s)
  | .body, s =>
    if s.enc.cnt < s.enc.blen then
      match srcRead s with
      | (some b, s') => (some b, s')
      | (none, s') => (none, raise .streamExhausted s')
    else (none, s)

/-- `FCS` after a byte of the source is loaded: only a body byte is accumulated (41_byte_cursor.md R133, 42_checksum.md R153). -/
def accumulate (src : ByteSource) (b : Byte) (e : Enc) : Enc :=
  if src = .body then { e with fcs := ckAdd e.fcs b } else e

/-- What `LoadOrExhaust` returns, with the state it leaves. -/
inductive Load where
  | loaded (s : State)
  | exhausted (s : State)
deriving DecidableEq, Repr

/-- `LoadOrExhaust(s)` for the stage's source (41_byte_cursor.md R133). -/
def loadOrExhaust (src : ByteSource) (s : State) : Load :=
  if s.enc.loaded then .loaded s
  else
    match nextByte src s with
    | (none, s') => .exhausted s'
    | (some b, s') => .loaded (s'.mapEnc fun e => accumulate src b (loadMzfByte b e))

/-- `EmitMzfBit()` (41_byte_cursor.md R134): the leader pulse, then the 8 data pulses, most significant bit first. -/
def emitMzfBit (e : Enc) : Enc :=
  if e.lead then
    let e' := pulse (mzfKind (mzfDataBit e)) e
    if pulseCompletes e then
      { e' with loaded := if lastDataPulse e then false else e'.loaded, bmask := e.bmask >>> 1 }
    else e'
  else
    let e' := pulse .long e
    if pulseCompletes e then { e' with lead := true } else e'

end Sys2Proof.Machine
end

