-- ==== Sys2Proof/Machine/Mzf.lean ====
section
/-! DEFINITION. The MZF stage state machine (43_mzf.md): MZF_INIT, MZF_TICK and one meaning for each MZF stage row. A
stage row's meaning is the operation its rule gives it; MZF_TICK selects the row by `MSTAGE` (log 13). -/

namespace Sys2Proof.Machine

/-! ### Session start (43_mzf.md R160) -/

/-- The registers MZF_INIT writes before it touches the byte source. -/
def mzfInitRegisters (e : Enc) : Enc :=
  { clearCursor e with
    blockId := BlockCode.mzf
    task := TaskCode.play
    cstage := CaqStage.done
    period := 0
    lead := false
    bmask := Config.bmaskFirst
    cnt := 0
    fcs := 0 }

/-- The `n` READs that fill `HDR[i] .. HDR[i+n-1]`, ascending, one each; they stop at the first `fail`. -/
def readHeader : Nat → Nat → State → Bool × State
  | 0, _, s => (true, s)
  | n + 1, i, s =>
    match srcRead s with
    | (none, s') => (false, s')
    | (some b, s') => readHeader n (i + 1) (memWrite (Fin.ofNat Config.nHdr i) b s')

/-- The header is in `HDR`: its checksum and length are taken and the first stage begins. -/
def mzfInitSucceed (s : State) : State :=
  s.mapEnc fun e => { e with hcs := ckHdr s, blen := bodyLength s, mstage := MzfStage.lgap }

/-- `HDR`, `HCS`, `BLEN` hold unspecified values until the next successful MZF_INIT (10_state.md R38,
93_implementation_defined.md U2; log 4, 5). -/
def unspecifyHeader (s : State) : State :=
  s.forgetHeader.mapEnc fun e => { e with hcs := Config.hcsFree (s.freeCtr + 1), blen := Config.blenFree (s.freeCtr + 1) }

/-- StorageAccessFailure is taken (60_exceptions.md R252): the MZF encoder enters its terminal state. -/
def mzfInitFail (s : State) : State := enterTerminal .mzf (raise .storageAccessFailure (unspecifyHeader s))

/-- MZF_INIT (43_mzf.md R160): SEEK, then 128 READs; after a failed SEEK no READ is made. -/
def execMzfInit (s : State) : Host.Outcome State Fault Refusal :=
  match srcSeek Config.mzfHdrPos (s.mapEnc mzfInitRegisters) with
  | (false, s') => .next (mzfInitFail s')
  | (true, s') =>
    match readHeader Config.nHdr 0 s' with
    | (false, s'') => .next (mzfInitFail s'')
    | (true, s'') => .next (mzfInitSucceed s'')

/-! ### The building blocks of a tick -/

/-- `PulseStage(k, N, next)` (43_mzf.md R163). -/
def pulseStage (k : PulseKind) (n : Nat) (next : BitVec 5) (e : Enc) : Enc :=
  let e' := pulse k e
  if pulseCompletes e then
    if lastPulse n e then goTo next e' else { e' with cnt := e.cnt + 1 }
  else e'

/-- `ByteStage(s, next)` (43_mzf.md R164). -/
def byteStage (src : ByteSource) (next : BitVec 5) (s : State) : State :=
  match loadOrExhaust src s with
  | .exhausted s' => s'.mapEnc fun e => goTo next { e with period := 0 }
  | .loaded s' => s'.mapEnc emitMzfBit

/-! ### The stages -/

/-- MZF_TICK.LGAP (43_mzf.md R167). -/
def execMzfLgap (s : State) : Host.Outcome State Fault Refusal :=
  .next (s.mapEnc (pulseStage .short Config.nLgap MzfStage.ltmL))

/-- MZF_TICK.LTM_L (43_mzf.md R168). -/
def execMzfLtmL (s : State) : Host.Outcome State Fault Refusal :=
  .next (s.mapEnc (pulseStage .long Config.nLtmL MzfStage.ltmS))

/-- MZF_TICK.LTM_S (43_mzf.md R169). -/
def execMzfLtmS (s : State) : Host.Outcome State Fault Refusal :=
  .next (s.mapEnc (pulseStage .short Config.nLtmS MzfStage.ltmE))

/-- MZF_TICK.LTM_E (43_mzf.md R170). -/
def execMzfLtmE (s : State) : Host.Outcome State Fault Refusal :=
  .next (s.mapEnc (pulseStage .long Config.nLtmE MzfStage.hdr1))

/-- MZF_TICK.HDR1 (43_mzf.md R171). -/
def execMzfHdr1 (s : State) : Host.Outcome State Fault Refusal := .next (byteStage .header MzfStage.hcs1 s)

/-- MZF_TICK.HCS1 (43_mzf.md R172). -/
def execMzfHcs1 (s : State) : Host.Outcome State Fault Refusal := .next (byteStage .headerChecksum MzfStage.hdr2 s)

/-- MZF_TICK.HDR2 (43_mzf.md R173). -/
def execMzfHdr2 (s : State) : Host.Outcome State Fault Refusal := .next (byteStage .header MzfStage.hcs2 s)

/-- MZF_TICK.HCS2 (43_mzf.md R174). -/
def execMzfHcs2 (s : State) : Host.Outcome State Fault Refusal := .next (byteStage .headerChecksum MzfStage.sgap s)

/-- MZF_TICK.SGAP (43_mzf.md R175). -/
def execMzfSgap (s : State) : Host.Outcome State Fault Refusal :=
  .next (s.mapEnc (pulseStage .short Config.nSgap MzfStage.stmL))

/-- MZF_TICK.STM_L (43_mzf.md R176). -/
def execMzfStmL (s : State) : Host.Outcome State Fault Refusal :=
  .next (s.mapEnc (pulseStage .long Config.nStmL MzfStage.stmS))

/-- MZF_TICK.STM_S (43_mzf.md R177). -/
def execMzfStmS (s : State) : Host.Outcome State Fault Refusal :=
  .next (s.mapEnc (pulseStage .short Config.nStmS MzfStage.stmE))

/-- MZF_TICK.STM_E (43_mzf.md R178). -/
def execMzfStmE (s : State) : Host.Outcome State Fault Refusal :=
  .next (s.mapEnc (pulseStage .long Config.nStmE MzfStage.body1))

/-- MZF_TICK.BODY1 (43_mzf.md R179). -/
def execMzfBody1 (s : State) : Host.Outcome State Fault Refusal := .next (byteStage .body MzfStage.fcs1 s)

/-- MZF_TICK.FCS1 (43_mzf.md R180): the next stage is TERMINAL, not BODY2 (43_mzf.md R187). -/
def execMzfFcs1 (s : State) : Host.Outcome State Fault Refusal := .next (byteStage .bodyChecksum MzfStage.terminal s)

/-- MZF_TICK.BODY2, the retained name of the second body copy: the terminal tick (43_mzf.md R181). -/
def execMzfBody2 (s : State) : Host.Outcome State Fault Refusal := .next (s.mapEnc terminalTick)

/-- MZF_TICK.FCS2, the retained name of the second body checksum: the terminal tick (43_mzf.md R182). -/
def execMzfFcs2 (s : State) : Host.Outcome State Fault Refusal := .next (s.mapEnc terminalTick)

/-- MZF_TICK.TERMINAL (43_mzf.md R189). -/
def execMzfTerminal (s : State) : Host.Outcome State Fault Refusal := .next (s.mapEnc terminalTick)

/-- MZF_TICK.RESERVED_10001: the terminal tick (43_mzf.md R183). -/
def execMzfReserved10001 (s : State) : Host.Outcome State Fault Refusal := .next (s.mapEnc terminalTick)

/-- MZF_TICK.RESERVED_1001x: the terminal tick (43_mzf.md R183). -/
def execMzfReserved1001x (s : State) : Host.Outcome State Fault Refusal := .next (s.mapEnc terminalTick)

/-- MZF_TICK.RESERVED_101xx: the terminal tick (43_mzf.md R183). -/
def execMzfReserved101xx (s : State) : Host.Outcome State Fault Refusal := .next (s.mapEnc terminalTick)

/-- MZF_TICK.RESERVED_11xxx: the terminal tick (43_mzf.md R183). -/
def execMzfReserved11xxx (s : State) : Host.Outcome State Fault Refusal := .next (s.mapEnc terminalTick)

/-- MZF_TICK (43_mzf.md R161): the stage operation that the code in `MSTAGE` selects (30_encoding.md R92, R112). -/
def execMzfTick (s : State) : Host.Outcome State Fault Refusal :=
  match s.enc.mstage.toNat with
  | 0 => execMzfLgap s
  | 1 => execMzfLtmL s
  | 2 => execMzfLtmS s
  | 3 => execMzfLtmE s
  | 4 => execMzfHdr1 s
  | 5 => execMzfHcs1 s
  | 6 => execMzfHdr2 s
  | 7 => execMzfHcs2 s
  | 8 => execMzfSgap s
  | 9 => execMzfStmL s
  | 10 => execMzfStmS s
  | 11 => execMzfStmE s
  | 12 => execMzfBody1 s
  | 13 => execMzfFcs1 s
  | 14 => execMzfBody2 s
  | 15 => execMzfFcs2 s
  | 16 => execMzfTerminal s
  | 17 => execMzfReserved10001 s
  | 18 | 19 => execMzfReserved1001x s
  | 20 | 21 | 22 | 23 => execMzfReserved101xx s
  | _ => execMzfReserved11xxx s

end Sys2Proof.Machine
end

