-- ==== Sys2Proof/Syntax.lean ====
section
/-! DEFINITION. The instructions of ENC: one constructor per row of spec/opcode_table.json. By 00_scope.md R8 an
instruction is a command, or the operation a second-level code selects: the stage operation of a TICK command
(30_encoding.md R92), or the pulse kind the tick hands to `Pulse` (30_encoding.md R96). A row with don't-care bits
carries them as an operand; WellFormed.lean bounds it. -/

namespace Sys2Proof

/-- The four formats of the opcode table. -/
inductive Format where
  /-- A command code on `cmd_op` (30_encoding.md R90). -/
  | cmd
  /-- A stage code in `MSTAGE` (30_encoding.md R93). -/
  | mzfStage
  /-- A stage code in `CSTAGE` (30_encoding.md R95). -/
  | caqStage
  /-- A pulse kind, the argument of `Pulse` (30_encoding.md R96). -/
  | pulseKind
deriving DecidableEq, Repr

/-- The number of bits of a code of the format. -/
def Format.width : Format → Nat
  | .cmd => 3
  | .mzfStage => 5
  | .caqStage => 3
  | .pulseKind => 2

/-- The instructions, in the table's order. -/
inductive Instr where
  -- the commands (30_encoding.md R91)
  | nop
  | mzfInit
  | mzfTick
  | caqInit
  | caqTick
  | abandon
  | reservedCmd (x : Nat)
  -- the MZF stage operations (30_encoding.md R93)
  | mzfLgap
  | mzfLtmL
  | mzfLtmS
  | mzfLtmE
  | mzfHdr1
  | mzfHcs1
  | mzfHdr2
  | mzfHcs2
  | mzfSgap
  | mzfStmL
  | mzfStmS
  | mzfStmE
  | mzfBody1
  | mzfFcs1
  | mzfBody2
  | mzfFcs2
  | mzfTerminal
  | mzfReserved10001
  | mzfReserved1001x (x : Nat)
  | mzfReserved101xx (x : Nat)
  | mzfReserved11xxx (x : Nat)
  -- the CAQ stage operations (30_encoding.md R95)
  | caqStartBit
  | caqDataBits
  | caqStopBit1
  | caqStopBit2
  | caqDone
  | caqReserved101
  | caqReserved11x (x : Nat)
  -- the pulse kinds (30_encoding.md R96)
  | pulseShort
  | pulseLong
  | pulseSpace
  | pulseMark
deriving DecidableEq, Repr

end Sys2Proof
end

