-- ==== Sys2Proof/WellFormed.lean ====
section
/-! DEFINITION. Which instructions the encoding admits: a row's don't-care operand fits the bits the row leaves open. -/

namespace Sys2Proof

/-- How many don't-care bits the instruction's row leaves open, and the operand that fills them. -/
def Instr.dontCare : Instr → Nat × Nat
  | .reservedCmd x => (1, x)
  | .mzfReserved1001x x => (1, x)
  | .mzfReserved101xx x => (2, x)
  | .mzfReserved11xxx x => (3, x)
  | .caqReserved11x x => (1, x)
  | .nop | .mzfInit | .mzfTick | .caqInit | .caqTick | .abandon
  | .mzfLgap | .mzfLtmL | .mzfLtmS | .mzfLtmE | .mzfHdr1 | .mzfHcs1 | .mzfHdr2 | .mzfHcs2
  | .mzfSgap | .mzfStmL | .mzfStmS | .mzfStmE | .mzfBody1 | .mzfFcs1 | .mzfBody2 | .mzfFcs2
  | .mzfTerminal | .mzfReserved10001
  | .caqStartBit | .caqDataBits | .caqStopBit1 | .caqStopBit2 | .caqDone | .caqReserved101
  | .pulseShort | .pulseLong | .pulseSpace | .pulseMark => (0, 0)

/-- The instruction's operand fits its row's don't-care bits. -/
def Instr.wf (i : Instr) : Bool := decide (i.dontCare.2 < 2 ^ i.dontCare.1)

end Sys2Proof
end

