-- ==== Sys2Proof/Decode.lean ====
section
/-! DEFINITION. Decoding and encoding. The decoder is the opcode table itself: a row is a format, a mask, a match value
and the instruction it stands for (30_encoding.md R91, R93, R95, R96), and a word decodes to the one row it matches.
30_encoding.md R112: `cmd_op` gives the command; for a TICK the stage register gives the stage operation. -/

namespace Sys2Proof

/-- Why a word is no code of a format. Safe: no rule gives such a word a meaning. -/
inductive DecodeError where
  /-- The word has a bit above the format's width (30_encoding.md R90, R92, R96). -/
  | tooWide (f : Format) (w : Nat)
  /-- No row of the format matches the word. The table leaves no such word (30_encoding.md R106, R107). -/
  | noRow (f : Format) (w : Nat)
deriving DecidableEq, Repr

/-- One row of the opcode table: a word `w` of the format matches when `w &&& mask = pat`, and `build` makes the
instruction from the word's don't-care bits. -/
structure Row where
  format : Format
  mask : Nat
  pat : Nat
  build : Nat → Instr

/-- The command rows (30_encoding.md R91). -/
def commandRows : List Row :=
  [ ⟨.cmd, 0b111, 0b000, fun _ => .nop⟩,
    ⟨.cmd, 0b111, 0b001, fun _ => .mzfInit⟩,
    ⟨.cmd, 0b111, 0b010, fun _ => .mzfTick⟩,
    ⟨.cmd, 0b111, 0b011, fun _ => .caqInit⟩,
    ⟨.cmd, 0b111, 0b100, fun _ => .caqTick⟩,
    ⟨.cmd, 0b111, 0b101, fun _ => .abandon⟩,
    ⟨.cmd, 0b110, 0b110, .reservedCmd⟩ ]

/-- The MZF stage rows (30_encoding.md R93). -/
def mzfStageRows : List Row :=
  [ ⟨.mzfStage, 0b11111, 0, fun _ => .mzfLgap⟩,
    ⟨.mzfStage, 0b11111, 1, fun _ => .mzfLtmL⟩,
    ⟨.mzfStage, 0b11111, 2, fun _ => .mzfLtmS⟩,
    ⟨.mzfStage, 0b11111, 3, fun _ => .mzfLtmE⟩,
    ⟨.mzfStage, 0b11111, 4, fun _ => .mzfHdr1⟩,
    ⟨.mzfStage, 0b11111, 5, fun _ => .mzfHcs1⟩,
    ⟨.mzfStage, 0b11111, 6, fun _ => .mzfHdr2⟩,
    ⟨.mzfStage, 0b11111, 7, fun _ => .mzfHcs2⟩,
    ⟨.mzfStage, 0b11111, 8, fun _ => .mzfSgap⟩,
    ⟨.mzfStage, 0b11111, 9, fun _ => .mzfStmL⟩,
    ⟨.mzfStage, 0b11111, 10, fun _ => .mzfStmS⟩,
    ⟨.mzfStage, 0b11111, 11, fun _ => .mzfStmE⟩,
    ⟨.mzfStage, 0b11111, 12, fun _ => .mzfBody1⟩,
    ⟨.mzfStage, 0b11111, 13, fun _ => .mzfFcs1⟩,
    ⟨.mzfStage, 0b11111, 14, fun _ => .mzfBody2⟩,
    ⟨.mzfStage, 0b11111, 15, fun _ => .mzfFcs2⟩,
    ⟨.mzfStage, 0b11111, 16, fun _ => .mzfTerminal⟩,
    ⟨.mzfStage, 0b11111, 0b10001, fun _ => .mzfReserved10001⟩,
    ⟨.mzfStage, 0b11110, 0b10010, .mzfReserved1001x⟩,
    ⟨.mzfStage, 0b11100, 0b10100, .mzfReserved101xx⟩,
    ⟨.mzfStage, 0b11000, 0b11000, .mzfReserved11xxx⟩ ]

/-- The CAQ stage rows (30_encoding.md R95). -/
def caqStageRows : List Row :=
  [ ⟨.caqStage, 0b111, 0, fun _ => .caqStartBit⟩,
    ⟨.caqStage, 0b111, 1, fun _ => .caqDataBits⟩,
    ⟨.caqStage, 0b111, 2, fun _ => .caqStopBit1⟩,
    ⟨.caqStage, 0b111, 3, fun _ => .caqStopBit2⟩,
    ⟨.caqStage, 0b111, 4, fun _ => .caqDone⟩,
    ⟨.caqStage, 0b111, 0b101, fun _ => .caqReserved101⟩,
    ⟨.caqStage, 0b110, 0b110, .caqReserved11x⟩ ]

/-- The pulse-kind rows (30_encoding.md R96). -/
def pulseKindRows : List Row :=
  [ ⟨.pulseKind, 0b11, 0b00, fun _ => .pulseShort⟩,
    ⟨.pulseKind, 0b11, 0b01, fun _ => .pulseLong⟩,
    ⟨.pulseKind, 0b11, 0b10, fun _ => .pulseSpace⟩,
    ⟨.pulseKind, 0b11, 0b11, fun _ => .pulseMark⟩ ]

/-- The rows of a format. -/
def rowsOf : Format → List Row
  | .cmd => commandRows
  | .mzfStage => mzfStageRows
  | .caqStage => caqStageRows
  | .pulseKind => pulseKindRows

/-- The whole opcode table. -/
def opcodeTable : List Row := commandRows ++ mzfStageRows ++ caqStageRows ++ pulseKindRows

/-- The word is a code of the row. -/
def Row.hits (r : Row) (w : Nat) : Bool := w &&& r.mask == r.pat

/-- The don't-care bits of a word that matches the row: what stands above its fixed bits, which every row has at the top. -/
def Row.restOf (r : Row) (w : Nat) : Nat := w - r.pat

/-- The instruction a code of a format stands for, or why it stands for none. Total on every word. -/
def decode (f : Format) (w : Nat) : Except DecodeError Instr :=
  if w < 2 ^ f.width then
    match (rowsOf f).find? (·.hits w) with
    | some r => .ok (r.build (r.restOf w))
    | none => .error (.noRow f w)
  else .error (.tooWide f w)

/-- The format of an instruction and its code, from the encoding columns of 30_encoding.md R91, R93, R95, R96. -/
def encode : Instr → Format × Nat
  | .nop => (.cmd, 0b000)
  | .mzfInit => (.cmd, 0b001)
  | .mzfTick => (.cmd, 0b010)
  | .caqInit => (.cmd, 0b011)
  | .caqTick => (.cmd, 0b100)
  | .abandon => (.cmd, 0b101)
  | .reservedCmd x => (.cmd, 0b110 + x)
  | .mzfLgap => (.mzfStage, 0)
  | .mzfLtmL => (.mzfStage, 1)
  | .mzfLtmS => (.mzfStage, 2)
  | .mzfLtmE => (.mzfStage, 3)
  | .mzfHdr1 => (.mzfStage, 4)
  | .mzfHcs1 => (.mzfStage, 5)
  | .mzfHdr2 => (.mzfStage, 6)
  | .mzfHcs2 => (.mzfStage, 7)
  | .mzfSgap => (.mzfStage, 8)
  | .mzfStmL => (.mzfStage, 9)
  | .mzfStmS => (.mzfStage, 10)
  | .mzfStmE => (.mzfStage, 11)
  | .mzfBody1 => (.mzfStage, 12)
  | .mzfFcs1 => (.mzfStage, 13)
  | .mzfBody2 => (.mzfStage, 14)
  | .mzfFcs2 => (.mzfStage, 15)
  | .mzfTerminal => (.mzfStage, 16)
  | .mzfReserved10001 => (.mzfStage, 0b10001)
  | .mzfReserved1001x x => (.mzfStage, 0b10010 + x)
  | .mzfReserved101xx x => (.mzfStage, 0b10100 + x)
  | .mzfReserved11xxx x => (.mzfStage, 0b11000 + x)
  | .caqStartBit => (.caqStage, 0)
  | .caqDataBits => (.caqStage, 1)
  | .caqStopBit1 => (.caqStage, 2)
  | .caqStopBit2 => (.caqStage, 3)
  | .caqDone => (.caqStage, 4)
  | .caqReserved101 => (.caqStage, 0b101)
  | .caqReserved11x x => (.caqStage, 0b110 + x)
  | .pulseShort => (.pulseKind, 0b00)
  | .pulseLong => (.pulseKind, 0b01)
  | .pulseSpace => (.pulseKind, 0b10)
  | .pulseMark => (.pulseKind, 0b11)

/-- The first word of 30_encoding.md R112: the command a code on `cmd_op` stands for. Every code stands for one. -/
def decodeCommand (op : CmdOp) : Instr := (decode .cmd op.toNat).toOption.getD .nop

/-- The second word of 30_encoding.md R112 for MZF_TICK: the stage operation a code in `MSTAGE` selects. -/
def decodeMzfStage (w : BitVec 5) : Instr := (decode .mzfStage w.toNat).toOption.getD .mzfTerminal

/-- The second word of 30_encoding.md R112 for CAQ_TICK: the stage operation a code in `CSTAGE` selects. -/
def decodeCaqStage (w : BitVec 3) : Instr := (decode .caqStage w.toNat).toOption.getD .caqDone

/-- The format in which a bare table word is read. The table's four formats share the low words; a word of three bits
is read as what the command port presents, and a wider one as the only format with codes that wide (log 12). -/
def tableFormat (w : Nat) : Format := if w < 2 ^ Format.cmd.width then .cmd else .mzfStage

/-- The instruction a bare word of the opcode table stands for. A code has one word and no operand words
(30_encoding.md R109), so the number of bits adds nothing to the word. -/
def decodeTableWord (nbits w : Nat) : Option Instr :=
  if w < 2 ^ nbits then (decode (tableFormat w) w).toOption else none

end Sys2Proof
end

