-- ==== Sys2Proof/Machine/Session.lean ====
section
/-! DEFINITION. The commands that belong to neither encoder (45_session.md), reset as an event of a run
(70_reset_and_hazards.md R280), and what the host does between operations. -/

namespace Sys2Proof.Machine

/-- NOP (45_session.md R231): every register keeps its value, no request is issued. -/
def execNop (s : State) : Host.Outcome State Fault Refusal := .next s

/-- RESERVED_CMD_11x: runs as NOP (30_encoding.md R106). -/
def execReservedCmd (s : State) : Host.Outcome State Fault Refusal := .next s

/-- The registers ABANDON writes beside the restore (45_session.md R233). -/
def abandonRegisters (e : Enc) : Enc :=
  { clearCursor e with
    mstage := MzfStage.terminal
    cstage := CaqStage.done
    period := 0
    blockId := BlockCode.none
    task := TaskCode.idle }

/-- ABANDON (45_session.md R233). -/
def execAbandon (s : State) : Host.Outcome State Fault Refusal := .next ((baudRestore s).mapEnc abandonRegisters)

/-- `rst` is asserted (70_reset_and_hazards.md R280, R281): every register at its reset value, `HDR` unspecified;
`BAUD` and the byte source are not touched and no request is made. -/
def applyReset (s : State) : State := s.forgetHeader.setEnc Enc.reset

/-- What the host's action does to the state, where it is not a command (45_session.md R237). -/
def applyHostInput : HostInput → State → State
  | .command _, s => s
  | .reset, s => applyReset s
  | .setBaud v, s => s.setBaud v
  | .setSource src, s => s.setSource src

/-- The next thing the host does, and the state with it taken off the list. -/
def nextInput (s : State) : Option (HostInput × State) :=
  match s.inputs with
  | [] => none
  | i :: is => some (i, s.setInputs is)

/-- The host is about to present the word `w` of the opcode table as the next thing to run. A command code stands on
`cmd_op`; a stage code stands in `MSTAGE` with MZF_TICK on `cmd_op` (30_encoding.md R92). A word that is no code
leaves the state as it is. -/
def presentWord (w : Nat) (s : State) : State :=
  match decode (tableFormat w) w with
  | .error _ => s
  | .ok _ =>
    if tableFormat w = .cmd then s.setInputs (.command (BitVec.ofNat 3 w) :: s.inputs)
    else (s.mapEnc fun e => { e with mstage := BitVec.ofNat 5 w }).setInputs (.command 0b010 :: s.inputs)

end Sys2Proof.Machine
end

