-- ==== Sys2Proof/Machine/Dispatch.lean ====
section
/-! DEFINITION. One arm per instruction, one direct call of its meaning each. -/

namespace Sys2Proof.Machine

def exec (i : Instr) (s : State) : Host.Outcome State Fault Refusal :=
  match i with
  | .nop => Sys2Proof.Machine.execNop s
  | .mzfInit => Sys2Proof.Machine.execMzfInit s
  | .mzfTick => Sys2Proof.Machine.execMzfTick s
  | .caqInit => Sys2Proof.Machine.execCaqInit s
  | .caqTick => Sys2Proof.Machine.execCaqTick s
  | .abandon => Sys2Proof.Machine.execAbandon s
  | .reservedCmd _ => Sys2Proof.Machine.execReservedCmd s
  | .mzfLgap => Sys2Proof.Machine.execMzfLgap s
  | .mzfLtmL => Sys2Proof.Machine.execMzfLtmL s
  | .mzfLtmS => Sys2Proof.Machine.execMzfLtmS s
  | .mzfLtmE => Sys2Proof.Machine.execMzfLtmE s
  | .mzfHdr1 => Sys2Proof.Machine.execMzfHdr1 s
  | .mzfHcs1 => Sys2Proof.Machine.execMzfHcs1 s
  | .mzfHdr2 => Sys2Proof.Machine.execMzfHdr2 s
  | .mzfHcs2 => Sys2Proof.Machine.execMzfHcs2 s
  | .mzfSgap => Sys2Proof.Machine.execMzfSgap s
  | .mzfStmL => Sys2Proof.Machine.execMzfStmL s
  | .mzfStmS => Sys2Proof.Machine.execMzfStmS s
  | .mzfStmE => Sys2Proof.Machine.execMzfStmE s
  | .mzfBody1 => Sys2Proof.Machine.execMzfBody1 s
  | .mzfFcs1 => Sys2Proof.Machine.execMzfFcs1 s
  | .mzfBody2 => Sys2Proof.Machine.execMzfBody2 s
  | .mzfFcs2 => Sys2Proof.Machine.execMzfFcs2 s
  | .mzfTerminal => Sys2Proof.Machine.execMzfTerminal s
  | .mzfReserved10001 => Sys2Proof.Machine.execMzfReserved10001 s
  | .mzfReserved1001x _ => Sys2Proof.Machine.execMzfReserved1001x s
  | .mzfReserved101xx _ => Sys2Proof.Machine.execMzfReserved101xx s
  | .mzfReserved11xxx _ => Sys2Proof.Machine.execMzfReserved11xxx s
  | .caqStartBit => Sys2Proof.Machine.execCaqStartBit s
  | .caqDataBits => Sys2Proof.Machine.execCaqDataBits s
  | .caqStopBit1 => Sys2Proof.Machine.execCaqStopBit1 s
  | .caqStopBit2 => Sys2Proof.Machine.execCaqStopBit2 s
  | .caqDone => Sys2Proof.Machine.execCaqDone s
  | .caqReserved101 => Sys2Proof.Machine.execCaqReserved101 s
  | .caqReserved11x _ => Sys2Proof.Machine.execCaqReserved11x s
  | .pulseShort => Sys2Proof.Machine.execPulseShort s
  | .pulseLong => Sys2Proof.Machine.execPulseLong s
  | .pulseSpace => Sys2Proof.Machine.execPulseSpace s
  | .pulseMark => Sys2Proof.Machine.execPulseMark s

end Sys2Proof.Machine
end

