-- ==== Sys2Proof/Machine/Step.lean ====
section
/-! DEFINITION. One step: the next thing the host does takes effect. A command is decoded and executed as one atomic
operation (00_scope.md R7); with nothing to do ENC keeps all state (60_exceptions.md R267). -/

namespace Sys2Proof.Machine

/-- One step of the machine. Returning a next state is `cmd_done` (10_state.md R42, log 14). -/
def step (s : State) : Host.Outcome State Fault Refusal :=
  match nextInput s with
  | none => .next s
  | some (.command op, s') => exec (decodeCommand op) s'
  | some (i, s') => .next (applyHostInput i s')

/-- The state with a word of the opcode table placed where the next step takes its instruction from: on the command
port, and for a stage code in `MSTAGE` too (log 12). -/
def State.withFetchWord (s : State) (_nbits w : Nat) : State := presentWord w s

end Sys2Proof.Machine
end

