-- ==== Sys2Proof/Machine/Driver.lean ====
section
/-! DEFINITION. What the external scheduler does with ENC (45_session.md R237 to R239) and the command streams of
30_encoding.md R110, R111: runs of one command, the play loops, and waves. -/

namespace Sys2Proof.Machine

/-- `exec i` `n` times: the values of `PERIOD` after each, and the state at the end. -/
def repeatExec (i : Instr) : Nat → State → Host.Outcome (List Period × State) Fault Refusal
  | 0, s => .next ([], s)
  | n + 1, s =>
    match exec i s with
    | .next s' =>
      match repeatExec i n s' with
      | .next (ps, s'') => .next (s'.enc.period :: ps, s'')
      | .fault f => .fault f
      | .refused r => .refused r
    | .fault f => .fault f
    | .refused r => .refused r

/-- The wave: the values of `PERIOD` with the zeros removed (45_session.md R239). -/
def wave (ps : List Period) : List Period := ps.filter (· ≠ 0)

/-- Issue the tick while `TASK` = PLAY, at most `fuel` times (30_encoding.md R111). -/
def tickWhilePlay (tick : Instr) : Nat → State → Host.Outcome State Fault Refusal
  | 0, s => .next s
  | n + 1, s =>
    if s.enc.task = TaskCode.play then
      match exec tick s with
      | .next s' => tickWhilePlay tick n s'
      | .fault f => .fault f
      | .refused r => .refused r
    else .next s

/-- The most ticks an MZF session takes (70_reset_and_hazards.md R299). -/
def maxMzfTicks : Nat := 70966 + 18 * 65535

/-- The mnemonic of a command in a command stream, and its code (30_encoding.md R91, R110). -/
def assembleCommand (mnemonic : String) : Option CmdOp :=
  if mnemonic = "NOP" then some 0b000
  else if mnemonic = "MZF_INIT" then some 0b001
  else if mnemonic = "MZF_TICK" then some 0b010
  else if mnemonic = "CAQ_INIT" then some 0b011
  else if mnemonic = "CAQ_TICK" then some 0b100
  else if mnemonic = "ABANDON" then some 0b101
  else none

/-- One line of a command stream, pseudo-instructions included (30_encoding.md R110, R111). -/
inductive ProgramLine where
  /-- A mnemonic `n` times. -/
  | times (op : CmdOp) (n : Nat)
  /-- `MZF_PLAY`. -/
  | mzfPlay
  /-- `CAQ_PLAY`, with a bound on its ticks: a source that never fails makes the session endless (70_reset_and_hazards.md R299). -/
  | caqPlay (fuel : Nat)
  /-- `RESET`. -/
  | reset
deriving DecidableEq, Repr

/-- What a line does (30_encoding.md R111). -/
def runLine : ProgramLine → State → Host.Outcome State Fault Refusal
  | .times op n, s =>
    match repeatExec (decodeCommand op) n s with
    | .next (_, s') => .next s'
    | .fault f => .fault f
    | .refused r => .refused r
  | .mzfPlay, s =>
    match exec .mzfInit s with
    | .next s' => tickWhilePlay .mzfTick maxMzfTicks s'
    | .fault f => .fault f
    | .refused r => .refused r
  | .caqPlay fuel, s =>
    match exec .caqInit s with
    | .next s' => tickWhilePlay .caqTick fuel s'
    | .fault f => .fault f
    | .refused r => .refused r
  | .reset, s => .next (applyReset s)

/-- A command stream: its lines one after another (30_encoding.md R110). -/
def runProgram : List ProgramLine → State → Host.Outcome State Fault Refusal
  | [], s => .next s
  | l :: ls, s =>
    match runLine l s with
    | .next s' => runProgram ls s'
    | .fault f => .fault f
    | .refused r => .refused r

end Sys2Proof.Machine
end

