-- ==== Sys2Proof/Machine/Frames.lean ====
section
/-! DEFINITION. The wire encodings the source fixes (30_encoding.md R99 to R103) and the durations a model may compute
from them (70_reset_and_hazards.md R301): what a byte, a checksum and a whole session become on the tape. No meaning
uses these; the statements compare what the machine emits with them. -/

namespace Sys2Proof.Machine

/-- The bits of a byte, most significant first (20_memory.md R73). -/
def bitsMsbFirst (b : Byte) : List Bool :=
  [b.getLsbD 7, b.getLsbD 6, b.getLsbD 5, b.getLsbD 4, b.getLsbD 3, b.getLsbD 2, b.getLsbD 1, b.getLsbD 0]

/-- `MzfFrame(b)`: one long leader pulse, then 8 data pulses (30_encoding.md R99). -/
def mzfFrame (b : Byte) : List PulseKind := .long :: (bitsMsbFirst b).map mzfKind

/-- A pulse is its up half, then its down half (30_encoding.md R100). -/
def pulseHalves (k : PulseKind) : List Period := [up k, down k]

/-- The half-periods of a list of pulses. -/
def halves (ks : List PulseKind) : List Period := ks.flatMap pulseHalves

/-- A receiver of an MZF frame: the leader carries no data, long is 1 and short is 0, most significant first
(30_encoding.md R99, "decoding the emitted leader-plus-8-pulse sequence"). -/
def readMzfFrame : List PulseKind → Option Byte
  | .long :: ks =>
    if ks.length = 8 ∧ ∀ k ∈ ks, k = .long ∨ k = .short then
      some (ks.foldl (fun acc k => acc <<< 1 ||| if k = .long then 1 else 0) 0)
    else none
  | _ => none

/-- A checksum is two frames, high byte first (30_encoding.md R102). -/
def checksumFrames (x : Word) : List PulseKind := mzfFrame (highByte x) ++ mzfFrame (lowByte x)

/-- What a complete MZF session sends before the body: gaps, tapemarks, and the header and its checksum twice
(30_encoding.md R103). -/
def mzfPreamble (header : List Byte) : List PulseKind :=
  List.replicate Config.nLgap .short
    ++ List.replicate Config.nLtmL .long ++ List.replicate Config.nLtmS .short ++ List.replicate Config.nLtmE .long
    ++ header.flatMap mzfFrame ++ checksumFrames (checksum header)
    ++ header.flatMap mzfFrame ++ checksumFrames (checksum header)
    ++ List.replicate Config.nSgap .short
    ++ List.replicate Config.nStmL .long ++ List.replicate Config.nStmS .short ++ List.replicate Config.nStmE .long

/-- The whole MZF transmission as a list of pulses (30_encoding.md R103): the second body copy is not sent (43_mzf.md R187). -/
def mzfTransmission (header body : List Byte) : List PulseKind :=
  mzfPreamble header ++ body.flatMap mzfFrame ++ checksumFrames (checksum body)

/-- `CaqBits(b)`: a start bit 0, 8 data bits, 2 stop bits 1 (30_encoding.md R101). -/
def caqBits (b : Byte) : List Bool := false :: bitsMsbFirst b ++ List.replicate Config.caqStopBits true

/-- `CaqBitHalves`: two full cycles of equal halves (30_encoding.md R101). -/
def caqBitHalves (bit : Bool) : List Period :=
  List.replicate (2 * Config.caqCycles) (if bit then Config.tMark else Config.tSpace)

/-- The half-periods of one CAQ byte frame (30_encoding.md R101). -/
def caqFrameHalves (b : Byte) : List Period := (caqBits b).flatMap caqBitHalves

/-- The whole CAQ transmission of a list of bytes (45_session.md R239). -/
def caqTransmission (bs : List Byte) : List Period := bs.flatMap caqFrameHalves

/-- How long a list of half-periods lasts, in microseconds (70_reset_and_hazards.md R301). -/
def duration (ps : List Period) : Nat := (ps.map BitVec.toNat).sum

end Sys2Proof.Machine
end

