-- ==== Sys2Proof/Machine/Ports.lean ====
section
/-! DEFINITION. The ports of ENC as views of the state and of the trace (10_state.md R41, R42; 30_encoding.md R98). -/

namespace Sys2Proof.Machine

/-- The status and hand-off outputs (10_state.md R42). -/
structure OutPorts where
  period : BitVec 16
  blockId : BitVec 2
  task : BitVec 2
  mstage : BitVec 5
  cstage : BitVec 3
deriving DecidableEq, Repr

/-- The outputs always equal their registers (10_state.md R41, R42). -/
def outPorts (s : State) : OutPorts :=
  { period := s.enc.period
    blockId := s.enc.blockId
    task := s.enc.task
    mstage := s.enc.mstage
    cstage := s.enc.cstage }

/-- The signals ENC drives for one request (10_state.md R42). -/
structure RequestPorts where
  srcReq : BitVec 2
  srcPos : SrcPos
  baudWe : Bool
  baudWdata : Baud
deriving DecidableEq, Repr

/-- What ENC drives for the `n`-th event of the trace: `src_req` 1 for SEEK and 2 for READ (30_encoding.md R98),
`baud_we` with `baud_wdata` for a write of `BAUD` (20_memory.md R70). Reading `BAUD` and raising a condition drive no
request. DESIGN CHOICE (log 19): the spec gives `baud_wdata` only with `baud_we` = 1 (10_state.md R42, 20_memory.md R70);
with `baud_we` = 0 the model drives a free value, one for each event. -/
def requestPorts (n : Nat) : Event → RequestPorts
  | .seek pos _ => { srcReq := 1, srcPos := pos, baudWe := false, baudWdata := Config.baudWdataFree n }
  | .read _ => { srcReq := 2, srcPos := 0, baudWe := false, baudWdata := Config.baudWdataFree n }
  | .baudRead _ => { srcReq := 0, srcPos := 0, baudWe := false, baudWdata := Config.baudWdataFree n }
  | .baudWrite v => { srcReq := 0, srcPos := 0, baudWe := true, baudWdata := v }
  | .raised _ => { srcReq := 0, srcPos := 0, baudWe := false, baudWdata := Config.baudWdataFree n }

/-- What ENC drove for each event of the trace, oldest first. -/
def portLog (s : State) : List RequestPorts := s.trace.reverse.zipIdx.map fun (ev, n) => requestPorts n ev

/-- The event is a request on the byte-source port: `src_req` is not 0 (30_encoding.md R98), whatever its place. -/
def isSourceRequest (ev : Event) : Bool := (requestPorts 0 ev).srcReq != 0

/-- The request log of the byte source, oldest first (the "src log" of 95_test_vectors.md). -/
def sourceLog (s : State) : List Event := (s.trace.filter isSourceRequest).reverse

end Sys2Proof.Machine
end

