-- ==== Sys2Proof/Safety.lean ====
section
/-! DEFINITION. What counts as a safe state and a well-behaved host: the invariants of 10_state.md R50, the snapshot of
20_memory.md R78, and the host's duties of 70_reset_and_hazards.md. -/

namespace Sys2Proof.Machine

/-- The values `PERIOD` may hold: 0 and the six constants (10_state.md R50 item 4). -/
def periodValues : List Period :=
  [0, Config.tLU, Config.tLD, Config.tSU, Config.tSD, Config.tMark, Config.tSpace]

/-- A one-hot byte mask (10_state.md R50 item 6). -/
def oneHotMasks : List Byte := [0x80, 0x40, 0x20, 0x10, 0x08, 0x04, 0x02, 0x01]

/-- What the row of `MZF_TABLE` in force asks of the cursor: a pulse-counted stage has counted fewer pulses than its
count, with no byte in progress; a byte-producing stage has loaded no more bytes than its limit, a byte in progress has
a one-hot mask, at 0x80 while its leader is out, and with no byte in progress no pulse is half out
(10_state.md R50 items 6, 7; 40_pulse.md R124; 43_mzf.md R165). -/
def stageCursorOk (e : Enc) : Prop :=
  match mzfTable e.mstage with
  | .pulses _ n _ => e.cnt.toNat < n ∧ e.loaded = false
  | .bytes src _ =>
    e.cnt ≤ byteLimit src e ∧ (e.loaded = false → e.phalf = false) ∧
      (e.loaded = true → e.bmask ∈ oneHotMasks ∧ (e.lead = false → e.bmask = Config.bmaskFirst))
  | .terminal => True

/-- What a live CAQ stage asks of the cursor: without a byte in progress it waits at a frame's edge, between pulses and
cycles (44_caq.md R206), and `BIDX` is 7 in the start bit and 0 in the stop bits (10_state.md R31). -/
def caqCursorOk (e : Enc) : Prop :=
  caqLive e = true →
    (e.loaded = false → e.phalf = false ∧ e.ccyc = false ∧ (e.cstage = CaqStage.startBit ∨ e.cstage = CaqStage.stopBit2)) ∧
    (e.cstage = CaqStage.startBit → e.bidx = 7) ∧
    (e.cstage = CaqStage.stopBit1 ∨ e.cstage = CaqStage.stopBit2 → e.bidx = 0)

/-- The invariant of ENC's registers (10_state.md R50, R31; 40_pulse.md R124; 60_exceptions.md R259). -/
structure EncInv (e : Enc) : Prop where
  /-- R50 item 1. -/
  mstage_legal : e.mstage.toNat ≤ 13 ∨ e.mstage = MzfStage.terminal
  /-- R50 item 2. -/
  cstage_legal : e.cstage.toNat ≤ 4
  /-- R50 item 3: at most one encoder is live. -/
  one_live : e.mstage = MzfStage.terminal ∨ e.cstage = CaqStage.done
  /-- R50 item 4. -/
  period_legal : e.period ∈ periodValues
  /-- With both encoders terminal no pulse is half out and no byte is in progress (R259). -/
  idle_clear : e.mstage = MzfStage.terminal → e.cstage = CaqStage.done → e.phalf = false ∧ e.loaded = false
  /-- R50 items 6 and 7. -/
  mzf_cursor : stageCursorOk e
  /-- R31, R206. -/
  caq_cursor : caqCursorOk e
  /-- R50 item 9. -/
  block_legal : e.blockId ≠ 3
  /-- R50 item 9. -/
  task_legal : e.task ≠ 3
  /-- The header space keeps its canonical form. -/
  header_wf : Memory.wf e.hdr = true

/-- The invariant of a state. -/
def StateInv (s : State) : Prop := EncInv s.enc

/-- While an MZF session is live, `HCS` and `BLEN` are those of the cached header, and every header byte is specified
(10_state.md R34, 20_memory.md R78). -/
def HeaderSnapshot (s : State) : Prop :=
  mzfLive s.enc = true →
    s.enc.hcs = ckHdr s ∧ s.enc.blen = bodyLength s ∧
      ∀ i : Fin Config.nHdr, (Memory.lookup s.enc.hdr i.val).isSome = true

/-- While the override is in force `BAUD` is 600 (10_state.md R50 item 8). -/
def BaudForced (s : State) : Prop := s.enc.ovr = true → s.baud = Config.caqBaud

/-- The host's duty of 70_reset_and_hazards.md R292 for its next action: no write of `BAUD` while `OVR` = 1. -/
def hostKeepsBaud (s : State) : Prop :=
  s.enc.ovr = true → ∀ v rest, s.inputs ≠ .setBaud v :: rest

/-- The host's duty of 70_reset_and_hazards.md R291 for a tick: the encoder it names is live. -/
def ticksLiveEncoder (op : CmdOp) (e : Enc) : Prop :=
  (op = 0b010 → mzfLive e = true) ∧ (op = 0b100 → caqLive e = true)

/-- The host reads `PERIOD` after a tick: 0 is not played; with `TASK` = PLAY it ticks again, with EOF it stops
(70_reset_and_hazards.md R287). -/
inductive HostReaction where
  | play (p : Period)
  | tickAgain
  | stop
deriving DecidableEq, Repr

/-- What the host does on a period and a task (70_reset_and_hazards.md R287). -/
def hostReaction (o : OutPorts) : HostReaction :=
  if o.period ≠ 0 then .play o.period else if o.task = TaskCode.play then .tickAgain else .stop

end Sys2Proof.Machine
end

