-- ==== Sys2Proof/Certificates/Slice0/Obligations.lean ====
section
/-! DEFINITION. The statements for the provers. Each is about the machine, for every state that meets its hypotheses;
a docstring names the rule of spec/ it rests on. Counts and codes are written as numbers here, as the spec prints them. -/

open Sys2Proof Sys2Proof.Machine

/-! ### Encodings -/

/-- Decoding the code of a well-formed instruction gives it back (30_encoding.md R91, R93, R95, R96). -/
def Obligations.DecodeEncodeAgree : Prop :=
  ∀ i : Instr, i.wf = true → decode (encode i).1 (encode i).2 = .ok i

/-- A word decodes only to a well-formed instruction whose code it is: no bit of a code is dropped. -/
def Obligations.DecodedWordsEncodeBack : Prop :=
  ∀ (f : Format) (w : Nat) (i : Instr), decode f w = .ok i → i.wf = true ∧ encode i = (f, w)

/-- Every word of a format's width is a code of some instruction, and a wider word is rejected by name
(30_encoding.md R90, R106, R107, R109). -/
def Obligations.EveryCodeOfAFormatDecodes : Prop :=
  ∀ (f : Format) (w : Nat),
    (w < 2 ^ f.width → ∃ i, decode f w = .ok i) ∧ (2 ^ f.width ≤ w → decode f w = .error (.tooWide f w))

/-- No code of a format matches two rows of the opcode table. -/
def Obligations.OpcodeRowsDisjoint : Prop :=
  ∀ f : Format, (rowsOf f).Pairwise fun r r' => ∀ w < 2 ^ f.width, ¬ (r.hits w = true ∧ r'.hits w = true)

/-- Codes written out from 30_encoding.md R91, R93, R95, R96 decode to what they stand for. -/
def Obligations.CodesDecodeToTheirInstructions : Prop :=
  decode .cmd 0b000 = .ok .nop ∧ decode .cmd 0b001 = .ok .mzfInit ∧ decode .cmd 0b100 = .ok .caqTick ∧
  decode .cmd 0b111 = .ok (.reservedCmd 1) ∧ decode .mzfStage 0b01100 = .ok .mzfBody1 ∧
  decode .mzfStage 0b10000 = .ok .mzfTerminal ∧ decode .mzfStage 0b10111 = .ok (.mzfReserved101xx 3) ∧
  decode .caqStage 0b011 = .ok .caqStopBit2 ∧ decode .pulseKind 0b10 = .ok .pulseSpace

/-! ### The step -/

/-- When the command port holds a code that decodes to `i`, the step is `exec i` with the code taken off the port. -/
def Obligations.StepRunsTheDecodedCommand : Prop :=
  ∀ (s : State) (op : CmdOp) (rest : List HostInput) (i : Instr),
    s.inputs = .command op :: rest → decode .cmd op.toNat = .ok i → step s = exec i (s.setInputs rest)

/-- Between commands ENC keeps all state, and the host's writes of `BAUD` and of the byte source change only those
(60_exceptions.md R267, 10_state.md R47, R48). -/
def Obligations.StepOfAnIdlePortOrAHostWrite : Prop :=
  ∀ (s : State) (rest : List HostInput),
    (s.inputs = [] → step s = .next s) ∧
    (∀ v, s.inputs = .setBaud v :: rest → step s = .next { s with inputs := rest, baud := v }) ∧
    (∀ src, s.inputs = .setSource src :: rest → step s = .next { s with inputs := rest, source := src })

/-- The second-level decode: a TICK command is the operation of the row its stage register selects
(30_encoding.md R92, R112; 43_mzf.md R161; 44_caq.md R205). -/
def Obligations.TicksRunTheSelectedStage : Prop :=
  ∀ (s : State) (i : Instr),
    (decode .mzfStage s.enc.mstage.toNat = .ok i → exec .mzfTick s = exec i s) ∧
    (decode .caqStage s.enc.cstage.toNat = .ok i → exec .caqTick s = exec i s)

/-- "Every command is accepted in every state; none is refused, none traps, none blocks" (45_session.md R230), and
neither does any step. -/
def Obligations.EveryOperationCompletes : Prop :=
  (∀ (i : Instr) (s : State), ∃ t, exec i s = .next t) ∧ (∀ s : State, ∃ t, step s = .next t)

/-! ### Reset (10_state.md R51, 70_reset_and_hazards.md R280, R281) -/

/-- Asserting `rst` puts every register at its reset value whatever it held, and touches neither `BAUD` nor the byte
source; `State.reset` holds the same values. `HDR` is unspecified and no clause speaks of it. -/
def Obligations.ResetPutsEveryRegisterAtItsResetValue : Prop :=
  (∀ (s : State) (rest : List HostInput), s.inputs = .reset :: rest →
    ∃ t, step s = .next t ∧ t.baud = s.baud ∧ t.source = s.source ∧ t.trace = s.trace ∧ t.inputs = rest ∧
      t.enc = { period := 0, phalf := false, mstage := 16, cstage := 4, cur := 0, loaded := false, lead := false,
                bmask := 0x00, bidx := 0, ccyc := false, hcs := 0, fcs := 0, blen := 0, cnt := 0, hdr := t.enc.hdr,
                savedBaud := 0, ovr := false, blockId := 0, task := 0 }) ∧
  State.reset.enc =
    { period := 0, phalf := false, mstage := 16, cstage := 4, cur := 0, loaded := false, lead := false,
      bmask := 0x00, bidx := 0, ccyc := false, hcs := 0, fcs := 0, blen := 0, cnt := 0, hdr := State.reset.enc.hdr,
      savedBaud := 0, ovr := false, blockId := 0, task := 0 }

/-! ### Constants and the pulse primitive (00_scope.md R10, 40_pulse.md) -/

/-- The constraints every instantiation of the six timing constants meets (00_scope.md R10). -/
def Obligations.TimingConstantsAreLegal : Prop :=
  (∀ p ∈ [Config.tLU, Config.tLD, Config.tSU, Config.tSD, Config.tMark, Config.tSpace], 1 ≤ p.toNat ∧ p.toNat ≤ 65535) ∧
  Config.tMark.toNat < Config.tSpace.toNat

/-- The code of a timing constant reaches every legal value: the model fixes none (log 7). -/
def Obligations.EveryLegalTimingHasACode : Prop :=
  (∀ p : Period, p ≠ 0 → ∃ c, Config.periodOfCode c = p) ∧
  (∀ mark space : Nat, 1 ≤ mark → mark < space → space ≤ 65535 →
    ∃ c m, Config.spaceOfCode c = space ∧ Config.markOfCode space m = mark)

/-- `Pulse(k)` sets the next half-period, never 0, and flips `PHALF`, and returns true exactly on the call that completes
the down half; nothing else changes (40_pulse.md R120, R121). The rows PULSE.SHORT, PULSE.LONG, PULSE.SPACE, PULSE.MARK. -/
def Obligations.PulseEmitsOneHalf : Prop :=
  ∀ (i : Instr) (k : PulseKind) (u d : Period),
    (i, k, u, d) ∈ [(Instr.pulseShort, PulseKind.short, Config.tSU, Config.tSD),
      (.pulseLong, .long, Config.tLU, Config.tLD), (.pulseSpace, .space, Config.tSpace, Config.tSpace),
      (.pulseMark, .mark, Config.tMark, Config.tMark)] →
    ∀ s : State,
      (s.enc.phalf = false → exec i s = .next (s.setEnc { s.enc with period := u, phalf := true })) ∧
      (s.enc.phalf = true → exec i s = .next (s.setEnc { s.enc with period := d, phalf := false })) ∧
      (pulseCompletes s.enc = true ↔ (pulse k s.enc).phalf = false) ∧ (pulse k s.enc).period ≠ 0

/-! ### Checksum (42_checksum.md) -/

/-- The checksum is the sum of the population counts modulo 65536 (42_checksum.md R150), `CKADD` extends it by one byte,
from 0 for no byte (R153), and a header's is at most 1024 (R152). -/
def Obligations.ChecksumIsARunningSum : Prop :=
  checksum [] = 0 ∧ (∀ bs : List Byte, (checksum bs).toNat = (bs.map popcount8).sum % 65536) ∧
  (∀ (bs : List Byte) (b : Byte), checksum (bs ++ [b]) = ckAdd (checksum bs) b) ∧
  (∀ bs : List Byte, bs.length = 128 → (checksum bs).toNat = (bs.map popcount8).sum ∧ (checksum bs).toNat ≤ 1024) ∧
  (∀ b : Byte, popcount8 b ≤ 8)

/-! ### The header space (20_memory.md R68) -/

/-- A byte written is read back, and every other byte reads as before. -/
def Obligations.HeaderReadAfterWrite : Prop :=
  ∀ (s : State) (i j : Fin Config.nHdr) (b : Byte),
    memRead (memWrite i b s) j = (if j = i then b else memRead s j)

/-! ### NOP, the reserved codes, ABANDON (45_session.md) -/

/-- NOP and the reserved command codes change nothing (45_session.md R231, 30_encoding.md R106). -/
def Obligations.NopAndReservedCommandsChangeNothing : Prop :=
  ∀ s : State, exec .nop s = .next s ∧ ∀ x, exec (.reservedCmd x) s = .next s

/-- ABANDON restores `BAUD` when the override is in force and discards the session; every register not named keeps its
value (45_session.md R233, 44_caq.md R203). -/
def Obligations.AbandonRestoresAndDiscards : Prop :=
  ∀ s : State,
    (s.enc.ovr = true → exec .abandon s = .next
      { s with
        baud := s.enc.savedBaud
        trace := .baudWrite s.enc.savedBaud :: s.trace
        enc := { s.enc with ovr := false, mstage := 16, cstage := 4, loaded := false, phalf := false, period := 0,
                            blockId := 0, task := 0 } }) ∧
    (s.enc.ovr = false → exec .abandon s = .next
      { s with
        enc := { s.enc with mstage := 16, cstage := 4, loaded := false, phalf := false, period := 0,
                            blockId := 0, task := 0 } })

/-! ### MZF_INIT (43_mzf.md R160) -/

/-- On the reference source with at least 128 bytes MZF_INIT reads the header: one SEEK to 0, then 128 READs in
ascending order; `HDR`, `HCS`, `BLEN` are the image's, the stage is LGAP, the source stands at 128. -/
def Obligations.MzfInitReadsTheHeader : Prop :=
  ∀ (s : State) (img : List Byte) (p : Nat), s.source = .image img p true → 128 ≤ img.length →
    ∃ t, exec .mzfInit s = .next t ∧
      (∀ i : Fin Config.nHdr, some (memRead t i) = img[i.val]?) ∧
      t.enc = { s.enc with
        blockId := 1, task := 1, cstage := 4, period := 0, phalf := false, loaded := false, lead := false,
        bmask := 0x80, cnt := 0, fcs := 0, mstage := 0, hdr := t.enc.hdr,
        hcs := checksum (img.take 128), blen := img.getD 19 0 ++ img.getD 18 0 } ∧
      t.baud = s.baud ∧ t.inputs = s.inputs ∧ t.source = .image img 128 true ∧
      t.trace = ((img.take 128).map fun b => Event.read (some b)).reverse ++ .seek 0 true :: s.trace

/-- A failed SEEK: StorageAccessFailure, no READ is made, the encoder is terminal with `TASK` EOF (60_exceptions.md
R252, 43_mzf.md R160). `HDR`, `HCS`, `BLEN` are unspecified and no clause speaks of them. -/
def Obligations.MzfInitSeekFailureEndsTheSession : Prop :=
  ∀ s : State, (s.source.seek 0).1 = false →
    ∃ t, exec .mzfInit s = .next t ∧
      t.enc = { s.enc with
        blockId := 1, task := 2, cstage := 4, period := 0, phalf := false, loaded := false, lead := false,
        bmask := 0x80, cnt := 0, fcs := 0, mstage := 16, hdr := t.enc.hdr, hcs := t.enc.hcs, blen := t.enc.blen } ∧
      t.baud = s.baud ∧ t.inputs = s.inputs ∧ t.source = (s.source.seek 0).2 ∧
      t.trace = .raised .storageAccessFailure :: .seek 0 false :: s.trace

/-- A short read: StorageAccessFailure at the first READ that fails, after which none is made (60_exceptions.md R252,
R257; 43_mzf.md R160). -/
def Obligations.MzfInitShortReadEndsTheSession : Prop :=
  ∀ (s : State) (img : List Byte) (p : Nat), s.source = .image img p true → img.length < 128 →
    ∃ t, exec .mzfInit s = .next t ∧
      t.enc = { s.enc with
        blockId := 1, task := 2, cstage := 4, period := 0, phalf := false, loaded := false, lead := false,
        bmask := 0x80, cnt := 0, fcs := 0, mstage := 16, hdr := t.enc.hdr, hcs := t.enc.hcs, blen := t.enc.blen } ∧
      t.baud = s.baud ∧ t.inputs = s.inputs ∧ t.source = .image img img.length true ∧
      t.trace = .raised .storageAccessFailure :: .read none ::
        ((img.map fun b => Event.read (some b)).reverse ++ .seek 0 true :: s.trace)

/-! ### The MZF stages (43_mzf.md) -/

/-- One tick of each pulse-counted stage (43_mzf.md R163): the half-period of its kind; on the down half the pulse is
counted, and the last pulse of the stage also enters the next stage with `CNT` 0 (and `FCS` 0 into BODY1). The same for
the row and for MZF_TICK with `MSTAGE` at the row's code. -/
def Obligations.PulseStagesEmitAndCount : Prop :=
  ∀ (i : Instr) (code : BitVec 5) (u d : Period) (n : Nat) (next : BitVec 5),
    (i, code, u, d, n, next) ∈
      [(Instr.mzfLgap, (0 : BitVec 5), Config.tSU, Config.tSD, 22000, (1 : BitVec 5)),
       (.mzfLtmL, 1, Config.tLU, Config.tLD, 40, 2), (.mzfLtmS, 2, Config.tSU, Config.tSD, 40, 3),
       (.mzfLtmE, 3, Config.tLU, Config.tLD, 1, 4), (.mzfSgap, 8, Config.tSU, Config.tSD, 11000, 9),
       (.mzfStmL, 9, Config.tLU, Config.tLD, 20, 10), (.mzfStmS, 10, Config.tSU, Config.tSD, 20, 11),
       (.mzfStmE, 11, Config.tLU, Config.tLD, 1, 12)] →
    ∀ (s : State) (j : Instr), (j = i ∨ (j = .mzfTick ∧ s.enc.mstage = code)) →
      (s.enc.phalf = false → exec j s = .next (s.setEnc { s.enc with period := u, phalf := true })) ∧
      (s.enc.phalf = true → s.enc.cnt + 1 ≠ BitVec.ofNat 16 n →
        exec j s = .next (s.setEnc { s.enc with period := d, phalf := false, cnt := s.enc.cnt + 1 })) ∧
      (s.enc.phalf = true → s.enc.cnt + 1 = BitVec.ofNat 16 n →
        exec j s = .next (s.setEnc { s.enc with
          period := d, phalf := false, cnt := 0, mstage := next, fcs := if next = 12 then 0 else s.enc.fcs }))

/-- A pulse-counted stage entered on a pulse boundary lasts `2N` ticks, all of them half-periods of its kind, up half
first, and its last tick enters the next stage (43_mzf.md R163, R166). -/
def Obligations.PulseStageLastsTwiceItsCount : Prop :=
  ∀ (code : BitVec 5) (k : PulseKind) (n : Nat) (next : BitVec 5), mzfTable code = .pulses k n next →
    ∀ s : State, s.enc.mstage = code → s.enc.cnt = 0 → s.enc.phalf = false →
      repeatExec .mzfTick (2 * n) s =
        .next (halves (List.replicate n k),
          s.setEnc { s.enc with
            period := down k, cnt := 0, mstage := next, fcs := if next = 12 then 0 else s.enc.fcs })

/-- The load of a header byte or a checksum byte begins its leader pulse on the same tick, with no request: HDR1, HDR2
give `HDR[CNT]`; HCS1, HCS2, FCS1 give the accumulator's high byte, then its low byte (41_byte_cursor.md R130, R131, R133, R134). -/
def Obligations.CachedStagesLoadTheNextByte : Prop :=
  ∀ (s : State) (b : Byte) (i : Instr) (code : BitVec 5), s.enc.loaded = false → s.enc.phalf = false →
    (((i, code) ∈ [(Instr.mzfHdr1, (4 : BitVec 5)), (.mzfHdr2, 6)] ∧
        ∃ n : Fin Config.nHdr, s.enc.cnt = BitVec.ofNat 16 n.val ∧ b = memRead s n) ∨
      ((i, code) ∈ [(Instr.mzfHcs1, (5 : BitVec 5)), (.mzfHcs2, 7)] ∧
        ((s.enc.cnt = 0 ∧ b.toNat = s.enc.hcs.toNat / 256) ∨ (s.enc.cnt = 1 ∧ b.toNat = s.enc.hcs.toNat % 256))) ∨
      ((i, code) ∈ [(Instr.mzfFcs1, (13 : BitVec 5))] ∧
        ((s.enc.cnt = 0 ∧ b.toNat = s.enc.fcs.toNat / 256) ∨ (s.enc.cnt = 1 ∧ b.toNat = s.enc.fcs.toNat % 256)))) →
    ∀ j : Instr, (j = i ∨ (j = .mzfTick ∧ s.enc.mstage = code)) →
      exec j s = .next (s.setEnc { s.enc with
        cur := b, loaded := true, lead := false, bmask := 0x80, cnt := s.enc.cnt + 1,
        period := Config.tLU, phalf := true })

/-- BODY1 loads one byte by one READ while `CNT < BLEN`, adds its population count to `FCS` and begins its leader pulse
(43_mzf.md R179, 41_byte_cursor.md R133, 42_checksum.md R153). `FCS` inside the pass is the register the rules keep,
no claim about hardware (93_implementation_defined.md U1, log 10). -/
def Obligations.BodyStageLoadsAndAccumulates : Prop :=
  ∀ (s : State) (b : Byte) (src : Source) (j : Instr), (j = .mzfBody1 ∨ (j = .mzfTick ∧ s.enc.mstage = 12)) →
    s.enc.loaded = false → s.enc.phalf = false → s.enc.cnt < s.enc.blen → s.source.read = (some b, src) →
    exec j s = .next { s with
      source := src
      trace := .read (some b) :: s.trace
      enc := { s.enc with
        cur := b, loaded := true, lead := false, bmask := 0x80, cnt := s.enc.cnt + 1,
        fcs := s.enc.fcs + BitVec.ofNat 16 (popcount8 b), period := Config.tLU, phalf := true } }

/-- How a byte-producing stage ends: with its range used up, or the body's READ failing, one zero tick enters the next
stage with `CNT` 0; FCS1's enters TERMINAL and writes `TASK` EOF. At `CNT` = `BLEN` no READ is made; a failing READ
raises StreamExhausted and nothing else differs (43_mzf.md R164, R162; 60_exceptions.md R253, R257). -/
def Obligations.ByteStagesEndWithAZeroTick : Prop :=
  ∀ (s : State) (j : Instr), s.enc.loaded = false →
    (∀ (i : Instr) (code next : BitVec 5) (limit : Nat),
      (i, code, next, limit) ∈ [(Instr.mzfHdr1, (4 : BitVec 5), (5 : BitVec 5), 128), (.mzfHcs1, 5, 6, 2),
        (.mzfHdr2, 6, 7, 128), (.mzfHcs2, 7, 8, 2), (.mzfBody1, 12, 13, s.enc.blen.toNat)] →
      (j = i ∨ (j = .mzfTick ∧ s.enc.mstage = code)) → limit ≤ s.enc.cnt.toNat →
      exec j s = .next (s.setEnc { s.enc with period := 0, cnt := 0, mstage := next })) ∧
    ((j = .mzfFcs1 ∨ (j = .mzfTick ∧ s.enc.mstage = 13)) → 2 ≤ s.enc.cnt.toNat →
      exec j s = .next (s.setEnc { s.enc with period := 0, cnt := 0, mstage := 16, task := 2 })) ∧
    (∀ src, (j = .mzfBody1 ∨ (j = .mzfTick ∧ s.enc.mstage = 12)) → s.enc.cnt < s.enc.blen →
      s.source.read = (none, src) →
      exec j s = .next { s with
        source := src
        trace := .raised .streamExhausted :: .read none :: s.trace
        enc := { s.enc with period := 0, cnt := 0, mstage := 13 } })

/-- With a byte in progress a byte-producing stage emits one half-period of its leader or of the data pulse `BMASK`
selects, makes no request, and keeps its stage and count (41_byte_cursor.md R134). -/
def Obligations.ByteInProgressEmitsItsPulses : Prop :=
  ∀ (s : State) (i : Instr) (code : BitVec 5),
    (i, code) ∈ [(Instr.mzfHdr1, (4 : BitVec 5)), (.mzfHcs1, 5), (.mzfHdr2, 6), (.mzfHcs2, 7), (.mzfBody1, 12), (.mzfFcs1, 13)] →
    ∀ j : Instr, (j = i ∨ (j = .mzfTick ∧ s.enc.mstage = code)) → s.enc.loaded = true →
      (s.enc.lead = false → s.enc.phalf = false →
        exec j s = .next (s.setEnc { s.enc with period := Config.tLU, phalf := true })) ∧
      (s.enc.lead = false → s.enc.phalf = true →
        exec j s = .next (s.setEnc { s.enc with period := Config.tLD, phalf := false, lead := true })) ∧
      (s.enc.lead = true → s.enc.phalf = false →
        exec j s = .next (s.setEnc { s.enc with
          period := if s.enc.cur &&& s.enc.bmask ≠ 0 then Config.tLU else Config.tSU, phalf := true })) ∧
      (s.enc.lead = true → s.enc.phalf = true → s.enc.bmask ≠ 0x01 →
        exec j s = .next (s.setEnc { s.enc with
          period := if s.enc.cur &&& s.enc.bmask ≠ 0 then Config.tLD else Config.tSD, phalf := false,
          bmask := s.enc.bmask >>> 1 })) ∧
      (s.enc.lead = true → s.enc.phalf = true → s.enc.bmask = 0x01 →
        exec j s = .next (s.setEnc { s.enc with
          period := if s.enc.cur &&& s.enc.bmask ≠ 0 then Config.tLD else Config.tSD, phalf := false,
          bmask := 0, loaded := false }))

/-- A byte of the body takes exactly 18 ticks, all of them the half-periods of its frame, from the tick that pulls it
(41_byte_cursor.md R135, 30_encoding.md R99, R100). `FCS` inside the pass as in log 10. -/
def Obligations.BodyByteTakesEighteenTicks : Prop :=
  ∀ (s : State) (b : Byte) (src : Source), s.enc.mstage = 12 → s.enc.loaded = false → s.enc.phalf = false →
    s.enc.cnt < s.enc.blen → s.source.read = (some b, src) →
    repeatExec .mzfTick 18 s = .next (halves (mzfFrame b), { s with
      source := src
      trace := .read (some b) :: s.trace
      enc := { s.enc with
        cur := b, loaded := false, lead := true, bmask := 0, cnt := s.enc.cnt + 1,
        fcs := s.enc.fcs + BitVec.ofNat 16 (popcount8 b), phalf := false,
        period := if b.getLsbD 0 then Config.tLD else Config.tSD } })

/-- The terminal tick of every row that has it, and of a TICK whose stage register holds a terminal, retained or
reserved code: `PERIOD` 0, `TASK` EOF, nothing else (43_mzf.md R181 to R183, R189; 44_caq.md R213, R214). That a tick of
the encoder that is not live keeps a `PHALF` of 1 is the model's reading (DEDUCED, log 11); the rows as instructions are
the model's form (log 13). -/
def Obligations.TerminalTicksOnlyReportEndOfFile : Prop :=
  ∀ (s : State) (j : Instr),
    (j ∈ [Instr.mzfBody2, .mzfFcs2, .mzfTerminal, .mzfReserved10001, .caqDone, .caqReserved101] ∨
     (∃ x, j ∈ [Instr.mzfReserved1001x x, .mzfReserved101xx x, .mzfReserved11xxx x, .caqReserved11x x]) ∨
     (j = .mzfTick ∧ 14 ≤ s.enc.mstage.toNat) ∨ (j = .caqTick ∧ 4 ≤ s.enc.cstage.toNat)) →
    exec j s = .next (s.setEnc { s.enc with period := 0, task := 2 })

/-! ### CAQ (44_caq.md) -/

/-- CAQ_INIT saves the host's rate when the override is not in force, writes 600 always, and starts a session; every
register not named keeps its value and the byte source is not asked (44_caq.md R202). -/
def Obligations.CaqInitForcesTheBaudRate : Prop :=
  ∀ s : State,
    (s.enc.ovr = false → exec .caqInit s = .next
      { s with
        baud := 600
        trace := .baudWrite 600 :: .baudRead s.baud :: s.trace
        enc := { s.enc with savedBaud := s.baud, ovr := true, blockId := 2, task := 1, mstage := 16, cstage := 0,
                            period := 0, phalf := false, loaded := false, bidx := 7, ccyc := false } }) ∧
    (s.enc.ovr = true → exec .caqInit s = .next
      { s with
        baud := 600
        trace := .baudWrite 600 :: s.trace
        enc := { s.enc with blockId := 2, task := 1, mstage := 16, cstage := 0,
                            period := 0, phalf := false, loaded := false, bidx := 7, ccyc := false } })

/-- Re-entrant initialisation does not lose the host's rate: after two CAQ_INITs `SAVED_BAUD` is what it is after one
(44_caq.md R202). -/
def Obligations.SecondCaqInitKeepsTheSavedBaud : Prop :=
  ∀ s t u : State, exec .caqInit s = .next t → exec .caqInit t = .next u →
    u.enc.savedBaud = t.enc.savedBaud ∧ u.baud = 600 ∧ (s.enc.ovr = false → u.enc.savedBaud = s.baud)

/-- A live CAQ stage with no byte in progress loads one by one READ and emits the first half-period of its start bit on
the same tick (44_caq.md R206, R209, R212). -/
def Obligations.CaqStagesLoadTheNextByte : Prop :=
  ∀ (s : State) (b : Byte) (src : Source) (j : Instr),
    (j ∈ [Instr.caqStartBit, .caqDataBits, .caqStopBit1, .caqStopBit2] ∨ (j = .caqTick ∧ s.enc.cstage.toNat < 4)) →
    s.enc.loaded = false → s.enc.phalf = false → s.source.read = (some b, src) →
    exec j s = .next { s with
      source := src
      trace := .read (some b) :: s.trace
      enc := { s.enc with cur := b, loaded := true, cstage := 0, bidx := 7, ccyc := false,
                          period := Config.tSpace, phalf := true } }

/-- An exhausted source completes a CAQ session: DONE, `TASK` EOF, a zero tick, and `BAUD` restored when the override is
in force (44_caq.md R203, R206; 60_exceptions.md R253, R258). -/
def Obligations.CaqExhaustionCompletesTheSession : Prop :=
  ∀ (s : State) (src : Source) (j : Instr),
    (j ∈ [Instr.caqStartBit, .caqDataBits, .caqStopBit1, .caqStopBit2] ∨ (j = .caqTick ∧ s.enc.cstage.toNat < 4)) →
    s.enc.loaded = false → s.source.read = (none, src) →
    (s.enc.ovr = true → exec j s = .next { s with
      source := src
      baud := s.enc.savedBaud
      trace := .baudWrite s.enc.savedBaud :: .raised .streamExhausted :: .read none :: s.trace
      enc := { s.enc with cstage := 4, ovr := false, task := 2, period := 0 } }) ∧
    (s.enc.ovr = false → exec j s = .next { s with
      source := src
      trace := .raised .streamExhausted :: .read none :: s.trace
      enc := { s.enc with cstage := 4, task := 2, period := 0 } })

/-- With a byte in progress each CAQ stage emits one half-period of its bit, `T_SPACE` for the start bit and a data bit
0, `T_MARK` for a data bit 1 and the stop bits; the second cycle's down half completes the bit and advances as the
rules say (44_caq.md R201, R207, R208, R209 to R212). No request is made. The rules select the bit by `CSTAGE`; that a
row run with another code in `CSTAGE` sends the bit of its own stage is the model's choice (logs 13, 17). -/
def Obligations.CaqStagesEmitTheirBits : Prop :=
  ∀ (s : State) (i : Instr) (code : BitVec 3),
    (i, code) ∈ [(Instr.caqStartBit, (0 : BitVec 3)), (.caqDataBits, 1), (.caqStopBit1, 2), (.caqStopBit2, 3)] →
    ∀ j : Instr, (j = i ∨ (j = .caqTick ∧ s.enc.cstage = code)) → s.enc.loaded = true →
      ∀ p : Period, p = (if code = 0 then Config.tSpace
          else if code = 1 then (if s.enc.cur.getLsbD s.enc.bidx.toNat then Config.tMark else Config.tSpace)
          else Config.tMark) →
      (s.enc.phalf = false → exec j s = .next (s.setEnc { s.enc with period := p, phalf := true })) ∧
      (s.enc.phalf = true → s.enc.ccyc = false →
        exec j s = .next (s.setEnc { s.enc with period := p, phalf := false, ccyc := true })) ∧
      (s.enc.phalf = true → s.enc.ccyc = true →
        (code = 0 → exec j s = .next (s.setEnc { s.enc with period := p, phalf := false, ccyc := false, cstage := 1 })) ∧
        (code = 1 → s.enc.bidx = 0 →
          exec j s = .next (s.setEnc { s.enc with period := p, phalf := false, ccyc := false, cstage := 2 })) ∧
        (code = 1 → s.enc.bidx ≠ 0 →
          exec j s = .next (s.setEnc { s.enc with
            period := p, phalf := false, ccyc := false, bidx := s.enc.bidx - 1 })) ∧
        (code = 2 → exec j s = .next (s.setEnc { s.enc with period := p, phalf := false, ccyc := false, cstage := 3 })) ∧
        (code = 3 → exec j s = .next (s.setEnc { s.enc with
            period := p, phalf := false, ccyc := false, loaded := false })))

/-- "each transmitted byte produces exactly 44 half-periods" (30_encoding.md R101, 44_caq.md R215): from a frame's edge,
44 ticks emit the frame of the byte the source gives and stand at the next edge. -/
def Obligations.CaqByteTakesFortyFourTicks : Prop :=
  ∀ (s : State) (b : Byte) (src : Source), s.enc.cstage.toNat < 4 → s.enc.loaded = false → s.enc.phalf = false →
    s.source.read = (some b, src) →
    repeatExec .caqTick 44 s = .next (caqFrameHalves b, { s with
      source := src
      trace := .read (some b) :: s.trace
      enc := { s.enc with cur := b, loaded := false, phalf := false, cstage := 3, bidx := 0, ccyc := false,
                          period := Config.tMark } })

/-- A whole CAQ session over the bytes left in the reference source (44_caq.md R204, R215; 45_session.md R239): CAQ_INIT,
then `44N + 1` ticks emit the frames of the `N` bytes and one zero; `BAUD` is 600 with the override in force after every
tick but the last, which ends the session with the host's rate back in `BAUD`. -/
def Obligations.CaqSessionSendsEveryByteAndRestoresBaud : Prop :=
  ∀ (s : State) (img : List Byte) (p : Nat) (seekOk : Bool), s.source = .image img p seekOk → p ≤ img.length →
    ∃ s0 t, exec .caqInit s = .next s0 ∧ s0.baud = 600 ∧
      repeatExec .caqTick (44 * (img.length - p) + 1) s0 = .next (caqTransmission (img.drop p) ++ [0], t) ∧
      t.enc.cstage = 4 ∧ t.enc.task = 2 ∧ t.enc.blockId = 2 ∧ t.enc.ovr = false ∧
      t.baud = (if s.enc.ovr then s.enc.savedBaud else s.baud) ∧ t.source = .image img img.length seekOk ∧
      (∀ k, k ≤ 44 * (img.length - p) → ∃ ps u, repeatExec .caqTick k s0 = .next (ps, u) ∧
        u.baud = 600 ∧ u.enc.ovr = true ∧ u.enc.task = 1)

/-! ### Invariants (10_state.md R50) -/

/-- The machine after reset meets the invariant, the header snapshot and the forced rate. -/
def Obligations.ResetMeetsTheInvariants : Prop :=
  StateInv State.reset ∧ HeaderSnapshot State.reset ∧ BaudForced State.reset

/-- Every step from a state that meets the invariant of 10_state.md R50 leads to one that does, whatever the host and
the byte source do. -/
def Obligations.StepKeepsTheInvariant : Prop :=
  ∀ s t : State, StateInv s → step s = .next t → StateInv t

/-- Every step keeps `HCS` and `BLEN` those of the cached header while an MZF session is live (10_state.md R34,
20_memory.md R78). -/
def Obligations.StepKeepsTheHeaderSnapshot : Prop :=
  ∀ s t : State, HeaderSnapshot s → step s = .next t → HeaderSnapshot t

/-- Every step keeps `BAUD` at 600 while `OVR` = 1, if the host keeps the duty of 70_reset_and_hazards.md R292
(10_state.md R50 item 8). -/
def Obligations.StepKeepsTheForcedBaud : Prop :=
  ∀ s t : State, BaudForced s → hostKeepsBaud s → step s = .next t → BaudForced t

/-! ### Frames and whole-machine rules -/

/-- The rows of the MZF stage operations, MZF_TICK among them, write only the registers of their row of the write
matrix, and the header space reads as before (10_state.md R52). -/
def Obligations.MzfTicksWriteOnlyTheirRegisters : Prop :=
  ∀ (s t : State) (j : Instr), (j = .mzfTick ∨ (encode j).1 = .mzfStage) → exec j s = .next t →
    t.enc.cstage = s.enc.cstage ∧ t.enc.bidx = s.enc.bidx ∧ t.enc.ccyc = s.enc.ccyc ∧ t.enc.hcs = s.enc.hcs ∧
    t.enc.blen = s.enc.blen ∧ t.enc.savedBaud = s.enc.savedBaud ∧ t.enc.ovr = s.enc.ovr ∧
    t.enc.blockId = s.enc.blockId ∧ t.baud = s.baud ∧ t.inputs = s.inputs ∧
    (∀ i : Fin Config.nHdr, memRead t i = memRead s i) ∧
    ((j = .mzfBody1 ∨ (j = .mzfTick ∧ s.enc.mstage = 12)) ∨ (t.source = s.source ∧ t.trace = s.trace))

/-- The rows of the CAQ stage operations, CAQ_TICK among them, write only the registers of their row of the write
matrix, and the header space reads as before (10_state.md R52). -/
def Obligations.CaqTicksWriteOnlyTheirRegisters : Prop :=
  ∀ (s t : State) (j : Instr), (j = .caqTick ∨ (encode j).1 = .caqStage) → exec j s = .next t →
    t.enc.mstage = s.enc.mstage ∧ t.enc.lead = s.enc.lead ∧ t.enc.bmask = s.enc.bmask ∧ t.enc.hcs = s.enc.hcs ∧
    t.enc.fcs = s.enc.fcs ∧ t.enc.blen = s.enc.blen ∧ t.enc.cnt = s.enc.cnt ∧ t.enc.savedBaud = s.enc.savedBaud ∧
    t.enc.blockId = s.enc.blockId ∧ t.inputs = s.inputs ∧ (∀ i : Fin Config.nHdr, memRead t i = memRead s i) ∧
    (t.baud = s.baud ∨ (t.baud = s.enc.savedBaud ∧ s.enc.ovr = true ∧ t.enc.ovr = false))

/-- MZF_INIT leaves the registers outside its row of the write matrix, and the settings space, as they were, whatever
the byte source answers; it makes one SEEK and at most 128 READs, and none after a READ that fails
(10_state.md R52, 20_memory.md R67). -/
def Obligations.MzfInitWritesOnlyItsRegisters : Prop :=
  ∀ s t : State, exec .mzfInit s = .next t →
    t.enc.cur = s.enc.cur ∧ t.enc.bidx = s.enc.bidx ∧ t.enc.ccyc = s.enc.ccyc ∧ t.enc.savedBaud = s.enc.savedBaud ∧
    t.enc.ovr = s.enc.ovr ∧ t.baud = s.baud ∧ t.inputs = s.inputs ∧
    ∃ (ok : Bool) (answers : List (Option Byte)) (raisedNow : List Event),
      t.trace = raisedNow ++ (answers.map Event.read ++ .seek 0 ok :: s.trace) ∧ answers.length ≤ 128 ∧
      (ok = false → answers = []) ∧ (∀ a ∈ answers.tail, a ≠ none) ∧
      ((raisedNow = [] ∧ t.enc.mstage = 0 ∧ t.enc.task = 1) ∨
       (raisedNow = [.raised .storageAccessFailure] ∧ t.enc.mstage = 16 ∧ t.enc.task = 2))

/-- `BAUD` is "read and temporarily overwritten by the CAQ encoder only" (20_memory.md R70): every instruction but
CAQ_INIT, the CAQ ticks and ABANDON leaves `BAUD`, `SAVED_BAUD` and `OVR` alone, and what any instruction writes to
`BAUD` is 600 or `SAVED_BAUD`. -/
def Obligations.OnlyCaqAndAbandonTouchTheBaud : Prop :=
  ∀ (s t : State) (j : Instr), exec j s = .next t →
    (j ≠ .caqInit → j ≠ .caqTick → j ≠ .abandon → (encode j).1 ≠ .caqStage →
      t.baud = s.baud ∧ t.enc.savedBaud = s.enc.savedBaud ∧ t.enc.ovr = s.enc.ovr) ∧
    (t.baud = s.baud ∨ t.baud = 600 ∨ t.baud = s.enc.savedBaud)

/-- A tick of a live MZF encoder keeps its stage or enters the next stage of the table, so stages only move forward and
the codes 14 and 15 are never entered (10_state.md R26, 30_encoding.md R93, R94; 43_mzf.md R187). -/
def Obligations.MzfStagesOnlyMoveForward : Prop :=
  ∀ s t : State, s.enc.mstage.toNat ≤ 13 → exec .mzfTick s = .next t →
    (t.enc.mstage = s.enc.mstage ∨
      (t.enc.mstage.toNat = s.enc.mstage.toNat + 1 ∧ s.enc.mstage.toNat ≤ 12) ∨
      (s.enc.mstage.toNat = 13 ∧ t.enc.mstage = 16 ∧ t.enc.task = 2)) ∧
    t.enc.mstage ≠ 14 ∧ t.enc.mstage ≠ 15

/-- Only MZF_INIT leaves TERMINAL, to LGAP, and only CAQ_INIT leaves DONE, to START_BIT; CAQ_INIT, ABANDON and reset
leave `MSTAGE` TERMINAL, and MZF_INIT, ABANDON and reset leave `CSTAGE` DONE (43_mzf.md R190, 44_caq.md R218). -/
def Obligations.OnlyInitLeavesTheTerminalState : Prop :=
  ∀ s t : State, step s = .next t →
    (s.enc.mstage = 16 → t.enc.mstage ≠ 16 → t.enc.mstage = 0 ∧ ∃ rest, s.inputs = .command 0b001 :: rest) ∧
    (s.enc.cstage = 4 → t.enc.cstage ≠ 4 → t.enc.cstage = 0 ∧ ∃ rest, s.inputs = .command 0b011 :: rest) ∧
    (∀ i rest, s.inputs = i :: rest →
      (i ∈ [.command 0b011, .command 0b101, .reset] → t.enc.mstage = 16) ∧
      (i ∈ [.command 0b001, .command 0b101, .reset] → t.enc.cstage = 4))

/-- What a tick puts in `PERIOD`: 0 or one of the four MZF constants for MZF_TICK, 0 or one of the two CAQ constants for
CAQ_TICK, from every state (43_mzf.md R186, 44_caq.md R216). -/
def Obligations.TicksEmitOnlyTheirProtocolsConstants : Prop :=
  ∀ s t : State,
    (exec .mzfTick s = .next t → t.enc.period ∈ [0, Config.tLU, Config.tLD, Config.tSU, Config.tSD]) ∧
    (exec .caqTick s = .next t → t.enc.period ∈ [0, Config.tMark, Config.tSpace])

/-- The hand-off registers change only as the table of 45_session.md R235 lists: reset, the two INITs, the entry to a
terminal state and the ticks in one, ABANDON; every other operation leaves them. A header read that failed raised
StorageAccessFailure, the newest event of the trace. -/
def Obligations.HandOffRegistersChangeAsListed : Prop :=
  (∀ s : State, (applyReset s).enc.blockId = 0 ∧ (applyReset s).enc.task = 0) ∧
  ∀ s t : State,
    (exec .mzfInit s = .next t → t.enc.blockId = 1 ∧
      ((t.trace.head? ≠ some (.raised .storageAccessFailure) ∧ t.enc.mstage = 0 ∧ t.enc.task = 1) ∨
       (t.trace.head? = some (.raised .storageAccessFailure) ∧ t.enc.mstage = 16 ∧ t.enc.task = 2))) ∧
    (exec .caqInit s = .next t → t.enc.blockId = 2 ∧ t.enc.task = 1) ∧
    (exec .abandon s = .next t → t.enc.blockId = 0 ∧ t.enc.task = 0) ∧
    (exec .mzfTick s = .next t → t.enc.blockId = s.enc.blockId ∧
      t.enc.task = (if 13 < t.enc.mstage.toNat then 2 else s.enc.task)) ∧
    (exec .caqTick s = .next t → t.enc.blockId = s.enc.blockId ∧
      t.enc.task = (if 3 < t.enc.cstage.toNat then 2 else s.enc.task)) ∧
    (∀ x j, j ∈ [.nop, .reservedCmd x] → exec j s = .next t → t.enc.blockId = s.enc.blockId ∧ t.enc.task = s.enc.task)

/-- While a session is live there are never two zero ticks in a row: a zero tick is followed by a non-zero one, or it
entered the terminal state with `TASK` = EOF (70_reset_and_hazards.md R288). -/
def Obligations.NoTwoZeroTicksInARow : Prop :=
  ∀ s t : State, StateInv s →
    (exec .mzfTick s = .next t → t.enc.period = 0 →
      (t.enc.mstage = 16 ∧ t.enc.task = 2) ∨ ∃ u, exec .mzfTick t = .next u ∧ u.enc.period ≠ 0) ∧
    (exec .caqTick s = .next t → t.enc.period = 0 → t.enc.cstage = 4 ∧ t.enc.task = 2)

/-- A zero tick of the live encoder leaves no pulse half out (40_pulse.md R124, 60_exceptions.md R259). -/
def Obligations.LiveZeroTicksLeaveNoHalfPulse : Prop :=
  ∀ s t : State, StateInv s →
    (mzfLive s.enc = true → exec .mzfTick s = .next t → t.enc.period = 0 → t.enc.phalf = false ∧ t.enc.loaded = false) ∧
    (caqLive s.enc = true → exec .caqTick s = .next t → t.enc.period = 0 → t.enc.phalf = false ∧ t.enc.loaded = false)

/-- A tick sent to the encoder that is not live, CAQ_TICK while an MZF pulse is half out or MZF_TICK while a CAQ pulse
is, is a terminal tick and keeps the live encoder's half pulse: `PERIOD` is 0 while `PHALF` is 1 (45_session.md R232,
43_mzf.md R189, 44_caq.md R214, 10_state.md R22, R33; DEDUCED, log 11 says how this stands to 10_state.md R50 item 5). -/
def Obligations.WrongTickKeepsTheHalfPulse : Prop :=
  ∀ s : State, s.enc.phalf = true →
    (s.enc.cstage = 4 → s.enc.mstage ≠ 16 →
      ∃ t, exec .caqTick s = .next t ∧ t.enc.period = 0 ∧ t.enc.task = 2 ∧ t.enc.phalf = true ∧
        t.enc.mstage = s.enc.mstage) ∧
    (s.enc.mstage = 16 → s.enc.cstage ≠ 4 →
      ∃ t, exec .mzfTick s = .next t ∧ t.enc.period = 0 ∧ t.enc.task = 2 ∧ t.enc.phalf = true ∧
        t.enc.cstage = s.enc.cstage)

/-! ### Whole sessions -/

/-- A whole MZF session on the reference source (30_encoding.md R103, 43_mzf.md R184, R185; 45_session.md R239): MZF_INIT,
then `70966 + 18m` ticks, `m` the body bytes the image holds up to `BLEN`, put exactly the transmission of the header
and those bytes on the tape; `TASK` is PLAY until the last tick, which enters TERMINAL; `BAUD` ends as it began. -/
def Obligations.MzfSessionSendsTheTransmission : Prop :=
  ∀ (s : State) (img : List Byte) (p : Nat) (body : List Byte), s.source = .image img p true → 128 ≤ img.length →
    body = (img.drop 128).take ((img.getD 18 0).toNat + 256 * (img.getD 19 0).toNat) →
    ∃ s0 ps t, exec .mzfInit s = .next s0 ∧
      repeatExec .mzfTick (70966 + 18 * body.length) s0 = .next (ps, t) ∧
      wave ps = halves (mzfTransmission (img.take 128) body) ∧
      t.enc.mstage = 16 ∧ t.enc.task = 2 ∧ t.enc.blockId = 1 ∧ t.enc.fcs = checksum body ∧ t.baud = s.baud ∧
      t.source = .image img (128 + body.length) true ∧
      (∀ k, k < 70966 + 18 * body.length → ∃ qs u, repeatExec .mzfTick k s0 = .next (qs, u) ∧ u.enc.task = 1)

/-- From every live position of an MZF session, whatever the byte source answers, ticking reaches `TASK` = EOF within
the bound of 70_reset_and_hazards.md R299. -/
def Obligations.MzfSessionTerminates : Prop :=
  ∀ s : State, StateInv s → mzfLive s.enc = true →
    ∃ n ps t, n ≤ 70966 + 18 * 65535 ∧ repeatExec .mzfTick n s = .next (ps, t) ∧ t.enc.task = 2 ∧ t.enc.mstage = 16

/-- The wave of a session is a function of the bytes the source delivers and of nothing else (45_session.md R239): two
machines whose byte sources are alike emit the same half-periods after the same INIT, tick for tick, whatever else
their states hold. -/
def Obligations.WaveDependsOnlyOnTheSource : Prop :=
  ∀ (s1 s2 t1 t2 u1 u2 : State) (n : Nat) (ps1 ps2 : List Period), s1.source = s2.source →
    ((exec .mzfInit s1 = .next t1 → exec .mzfInit s2 = .next t2 →
      repeatExec .mzfTick n t1 = .next (ps1, u1) → repeatExec .mzfTick n t2 = .next (ps2, u2) → ps1 = ps2) ∧
     (exec .caqInit s1 = .next t1 → exec .caqInit s2 = .next t2 →
      repeatExec .caqTick n t1 = .next (ps1, u1) → repeatExec .caqTick n t2 = .next (ps2, u2) → ps1 = ps2))

/-! ### The wire encodings (30_encoding.md R99 to R103) -/

/-- Reading a frame back gives the byte (30_encoding.md R99). -/
def Obligations.MzfFrameReadsBack : Prop :=
  ∀ b : Byte, readMzfFrame (mzfFrame b) = some b

/-- The lengths the spec derives: 9 pulses a byte, 35480 + 9 |B| pulses a transmission, 44 half-periods a CAQ byte
(30_encoding.md R99, R101, R103). -/
def Obligations.TransmissionLengths : Prop :=
  (∀ b : Byte, (mzfFrame b).length = 9 ∧ (caqFrameHalves b).length = 44) ∧
  ∀ header body : List Byte, header.length = 128 → (mzfTransmission header body).length = 35480 + 9 * body.length

/-- The durations of 70_reset_and_hazards.md R301 and 30_encoding.md R101. -/
def Obligations.FrameDurations : Prop :=
  ∀ b : Byte,
    duration (halves (mzfFrame b)) =
      (1 + popcount8 b) * (Config.tLU.toNat + Config.tLD.toNat) +
      (8 - popcount8 b) * (Config.tSU.toNat + Config.tSD.toNat) ∧
    duration (caqFrameHalves b) =
      4 * Config.tSpace.toNat * (9 - popcount8 b) + 4 * Config.tMark.toNat * (2 + popcount8 b)

/-! ### The half flag over all operations (10_state.md R50 item 5, 40_pulse.md R124) -/

/-- A tick that emits flips `PHALF` and a zero tick keeps it, so what is emitted alternates up half, down half, whatever
zero ticks stand between (10_state.md R22, R33; 40_pulse.md R121). For a tick sent to an encoder while the other is in
mid-pulse that clause is the model's reading: 40_pulse.md R124 and 10_state.md R50 item 5 say the contrary there
(DEDUCED, log 11). From a state that meets the invariant, `PHALF` is 0 after an INIT, ABANDON, reset, and every zero tick
but one sent to an encoder while the other is live (10_state.md R50 item 5). -/
def Obligations.HalfFlagIsClearBetweenPulses : Prop :=
  (∀ (s t : State) (j : Instr), j = .mzfTick ∨ j = .caqTick → exec j s = .next t →
    t.enc.phalf = (if t.enc.period = 0 then s.enc.phalf else !s.enc.phalf)) ∧
  (∀ (s t : State) (j : Instr), j ∈ [.mzfInit, .caqInit, .abandon] → exec j s = .next t → t.enc.phalf = false) ∧
  (∀ s : State, (applyReset s).enc.phalf = false) ∧
  ∀ s t : State, StateInv s →
    (caqLive s.enc = false → exec .mzfTick s = .next t → t.enc.period = 0 → t.enc.phalf = false) ∧
    (mzfLive s.enc = false → exec .caqTick s = .next t → t.enc.period = 0 → t.enc.phalf = false)
end

