-- ==== Sys2Proof/Laws/State.lean ====
section
/-! SUPPORT. For every update of State and of ENC's registers, what each field holds after it: one lemma a field, so that
no later proof unfolds a record update. -/

namespace Sys2Proof.Machine

/-! ### Updates of State -/

@[simp] theorem setEnc_enc (x : Enc) (s : State) : (s.setEnc x).enc = x := rfl
@[simp] theorem setEnc_baud (x : Enc) (s : State) : (s.setEnc x).baud = s.baud := rfl
@[simp] theorem setEnc_source (x : Enc) (s : State) : (s.setEnc x).source = s.source := rfl
@[simp] theorem setEnc_inputs (x : Enc) (s : State) : (s.setEnc x).inputs = s.inputs := rfl
@[simp] theorem setEnc_trace (x : Enc) (s : State) : (s.setEnc x).trace = s.trace := rfl
@[simp] theorem setEnc_freeCtr (x : Enc) (s : State) : (s.setEnc x).freeCtr = s.freeCtr := rfl

@[simp] theorem mapEnc_enc (g : Enc → Enc) (s : State) : (s.mapEnc g).enc = g s.enc := rfl
@[simp] theorem mapEnc_baud (g : Enc → Enc) (s : State) : (s.mapEnc g).baud = s.baud := rfl
@[simp] theorem mapEnc_source (g : Enc → Enc) (s : State) : (s.mapEnc g).source = s.source := rfl
@[simp] theorem mapEnc_inputs (g : Enc → Enc) (s : State) : (s.mapEnc g).inputs = s.inputs := rfl
@[simp] theorem mapEnc_trace (g : Enc → Enc) (s : State) : (s.mapEnc g).trace = s.trace := rfl
@[simp] theorem mapEnc_freeCtr (g : Enc → Enc) (s : State) : (s.mapEnc g).freeCtr = s.freeCtr := rfl

@[simp] theorem setBaud_enc (v : Baud) (s : State) : (s.setBaud v).enc = s.enc := rfl
@[simp] theorem setBaud_baud (v : Baud) (s : State) : (s.setBaud v).baud = v := rfl
@[simp] theorem setBaud_source (v : Baud) (s : State) : (s.setBaud v).source = s.source := rfl
@[simp] theorem setBaud_inputs (v : Baud) (s : State) : (s.setBaud v).inputs = s.inputs := rfl
@[simp] theorem setBaud_trace (v : Baud) (s : State) : (s.setBaud v).trace = s.trace := rfl
@[simp] theorem setBaud_freeCtr (v : Baud) (s : State) : (s.setBaud v).freeCtr = s.freeCtr := rfl

@[simp] theorem setSource_enc (x : Source) (s : State) : (s.setSource x).enc = s.enc := rfl
@[simp] theorem setSource_baud (x : Source) (s : State) : (s.setSource x).baud = s.baud := rfl
@[simp] theorem setSource_source (x : Source) (s : State) : (s.setSource x).source = x := rfl
@[simp] theorem setSource_inputs (x : Source) (s : State) : (s.setSource x).inputs = s.inputs := rfl
@[simp] theorem setSource_trace (x : Source) (s : State) : (s.setSource x).trace = s.trace := rfl
@[simp] theorem setSource_freeCtr (x : Source) (s : State) : (s.setSource x).freeCtr = s.freeCtr := rfl

@[simp] theorem setInputs_enc (x : List HostInput) (s : State) : (s.setInputs x).enc = s.enc := rfl
@[simp] theorem setInputs_baud (x : List HostInput) (s : State) : (s.setInputs x).baud = s.baud := rfl
@[simp] theorem setInputs_source (x : List HostInput) (s : State) : (s.setInputs x).source = s.source := rfl
@[simp] theorem setInputs_inputs (x : List HostInput) (s : State) : (s.setInputs x).inputs = x := rfl
@[simp] theorem setInputs_trace (x : List HostInput) (s : State) : (s.setInputs x).trace = s.trace := rfl
@[simp] theorem setInputs_freeCtr (x : List HostInput) (s : State) : (s.setInputs x).freeCtr = s.freeCtr := rfl

@[simp] theorem addEvent_enc (x : Event) (s : State) : (s.addEvent x).enc = s.enc := rfl
@[simp] theorem addEvent_baud (x : Event) (s : State) : (s.addEvent x).baud = s.baud := rfl
@[simp] theorem addEvent_source (x : Event) (s : State) : (s.addEvent x).source = s.source := rfl
@[simp] theorem addEvent_inputs (x : Event) (s : State) : (s.addEvent x).inputs = s.inputs := rfl
@[simp] theorem addEvent_trace (x : Event) (s : State) : (s.addEvent x).trace = x :: s.trace := rfl
@[simp] theorem addEvent_freeCtr (x : Event) (s : State) : (s.addEvent x).freeCtr = s.freeCtr := rfl

@[simp] theorem forgetHeader_enc (s : State) : (s.forgetHeader).enc = { s.enc with hdr := [] } := rfl
@[simp] theorem forgetHeader_baud (s : State) : (s.forgetHeader).baud = s.baud := rfl
@[simp] theorem forgetHeader_source (s : State) : (s.forgetHeader).source = s.source := rfl
@[simp] theorem forgetHeader_inputs (s : State) : (s.forgetHeader).inputs = s.inputs := rfl
@[simp] theorem forgetHeader_trace (s : State) : (s.forgetHeader).trace = s.trace := rfl
@[simp] theorem forgetHeader_freeCtr (s : State) : (s.forgetHeader).freeCtr = s.freeCtr + 1 := rfl

@[simp] theorem memWrite_enc (i : Fin Config.nHdr) (b : Byte) (s : State) : (memWrite i b s).enc = { s.enc with hdr := Memory.insert s.enc.hdr i.val b } := rfl
@[simp] theorem memWrite_baud (i : Fin Config.nHdr) (b : Byte) (s : State) : (memWrite i b s).baud = s.baud := rfl
@[simp] theorem memWrite_source (i : Fin Config.nHdr) (b : Byte) (s : State) : (memWrite i b s).source = s.source := rfl
@[simp] theorem memWrite_inputs (i : Fin Config.nHdr) (b : Byte) (s : State) : (memWrite i b s).inputs = s.inputs := rfl
@[simp] theorem memWrite_trace (i : Fin Config.nHdr) (b : Byte) (s : State) : (memWrite i b s).trace = s.trace := rfl
@[simp] theorem memWrite_freeCtr (i : Fin Config.nHdr) (b : Byte) (s : State) : (memWrite i b s).freeCtr = s.freeCtr := rfl

@[simp] theorem applyReset_enc (s : State) : (applyReset s).enc = Enc.reset := rfl
@[simp] theorem applyReset_baud (s : State) : (applyReset s).baud = s.baud := rfl
@[simp] theorem applyReset_source (s : State) : (applyReset s).source = s.source := rfl
@[simp] theorem applyReset_inputs (s : State) : (applyReset s).inputs = s.inputs := rfl
@[simp] theorem applyReset_trace (s : State) : (applyReset s).trace = s.trace := rfl
@[simp] theorem applyReset_freeCtr (s : State) : (applyReset s).freeCtr = s.freeCtr + 1 := rfl

/-! ### Updates of the registers -/

@[simp] theorem clearCursor_period (e : Enc) : (clearCursor e).period = e.period := rfl
@[simp] theorem clearCursor_phalf (e : Enc) : (clearCursor e).phalf = false := rfl
@[simp] theorem clearCursor_mstage (e : Enc) : (clearCursor e).mstage = e.mstage := rfl
@[simp] theorem clearCursor_cstage (e : Enc) : (clearCursor e).cstage = e.cstage := rfl
@[simp] theorem clearCursor_cur (e : Enc) : (clearCursor e).cur = e.cur := rfl
@[simp] theorem clearCursor_loaded (e : Enc) : (clearCursor e).loaded = false := rfl
@[simp] theorem clearCursor_lead (e : Enc) : (clearCursor e).lead = e.lead := rfl
@[simp] theorem clearCursor_bmask (e : Enc) : (clearCursor e).bmask = e.bmask := rfl
@[simp] theorem clearCursor_bidx (e : Enc) : (clearCursor e).bidx = e.bidx := rfl
@[simp] theorem clearCursor_ccyc (e : Enc) : (clearCursor e).ccyc = e.ccyc := rfl
@[simp] theorem clearCursor_hcs (e : Enc) : (clearCursor e).hcs = e.hcs := rfl
@[simp] theorem clearCursor_fcs (e : Enc) : (clearCursor e).fcs = e.fcs := rfl
@[simp] theorem clearCursor_blen (e : Enc) : (clearCursor e).blen = e.blen := rfl
@[simp] theorem clearCursor_cnt (e : Enc) : (clearCursor e).cnt = e.cnt := rfl
@[simp] theorem clearCursor_hdr (e : Enc) : (clearCursor e).hdr = e.hdr := rfl
@[simp] theorem clearCursor_savedBaud (e : Enc) : (clearCursor e).savedBaud = e.savedBaud := rfl
@[simp] theorem clearCursor_ovr (e : Enc) : (clearCursor e).ovr = e.ovr := rfl
@[simp] theorem clearCursor_blockId (e : Enc) : (clearCursor e).blockId = e.blockId := rfl
@[simp] theorem clearCursor_task (e : Enc) : (clearCursor e).task = e.task := rfl

@[simp] theorem loadMzfByte_period (b : Byte) (e : Enc) : (loadMzfByte b e).period = e.period := rfl
@[simp] theorem loadMzfByte_phalf (b : Byte) (e : Enc) : (loadMzfByte b e).phalf = e.phalf := rfl
@[simp] theorem loadMzfByte_mstage (b : Byte) (e : Enc) : (loadMzfByte b e).mstage = e.mstage := rfl
@[simp] theorem loadMzfByte_cstage (b : Byte) (e : Enc) : (loadMzfByte b e).cstage = e.cstage := rfl
@[simp] theorem loadMzfByte_cur (b : Byte) (e : Enc) : (loadMzfByte b e).cur = b := rfl
@[simp] theorem loadMzfByte_loaded (b : Byte) (e : Enc) : (loadMzfByte b e).loaded = true := rfl
@[simp] theorem loadMzfByte_lead (b : Byte) (e : Enc) : (loadMzfByte b e).lead = false := rfl
@[simp] theorem loadMzfByte_bmask (b : Byte) (e : Enc) : (loadMzfByte b e).bmask = Config.bmaskFirst := rfl
@[simp] theorem loadMzfByte_bidx (b : Byte) (e : Enc) : (loadMzfByte b e).bidx = e.bidx := rfl
@[simp] theorem loadMzfByte_ccyc (b : Byte) (e : Enc) : (loadMzfByte b e).ccyc = e.ccyc := rfl
@[simp] theorem loadMzfByte_hcs (b : Byte) (e : Enc) : (loadMzfByte b e).hcs = e.hcs := rfl
@[simp] theorem loadMzfByte_fcs (b : Byte) (e : Enc) : (loadMzfByte b e).fcs = e.fcs := rfl
@[simp] theorem loadMzfByte_blen (b : Byte) (e : Enc) : (loadMzfByte b e).blen = e.blen := rfl
@[simp] theorem loadMzfByte_cnt (b : Byte) (e : Enc) : (loadMzfByte b e).cnt = e.cnt + 1 := rfl
@[simp] theorem loadMzfByte_hdr (b : Byte) (e : Enc) : (loadMzfByte b e).hdr = e.hdr := rfl
@[simp] theorem loadMzfByte_savedBaud (b : Byte) (e : Enc) : (loadMzfByte b e).savedBaud = e.savedBaud := rfl
@[simp] theorem loadMzfByte_ovr (b : Byte) (e : Enc) : (loadMzfByte b e).ovr = e.ovr := rfl
@[simp] theorem loadMzfByte_blockId (b : Byte) (e : Enc) : (loadMzfByte b e).blockId = e.blockId := rfl
@[simp] theorem loadMzfByte_task (b : Byte) (e : Enc) : (loadMzfByte b e).task = e.task := rfl

@[simp] theorem loadCaqByte_period (b : Byte) (e : Enc) : (loadCaqByte b e).period = e.period := rfl
@[simp] theorem loadCaqByte_phalf (b : Byte) (e : Enc) : (loadCaqByte b e).phalf = e.phalf := rfl
@[simp] theorem loadCaqByte_mstage (b : Byte) (e : Enc) : (loadCaqByte b e).mstage = e.mstage := rfl
@[simp] theorem loadCaqByte_cstage (b : Byte) (e : Enc) : (loadCaqByte b e).cstage = CaqStage.startBit := rfl
@[simp] theorem loadCaqByte_cur (b : Byte) (e : Enc) : (loadCaqByte b e).cur = b := rfl
@[simp] theorem loadCaqByte_loaded (b : Byte) (e : Enc) : (loadCaqByte b e).loaded = true := rfl
@[simp] theorem loadCaqByte_lead (b : Byte) (e : Enc) : (loadCaqByte b e).lead = e.lead := rfl
@[simp] theorem loadCaqByte_bmask (b : Byte) (e : Enc) : (loadCaqByte b e).bmask = e.bmask := rfl
@[simp] theorem loadCaqByte_bidx (b : Byte) (e : Enc) : (loadCaqByte b e).bidx = 7 := rfl
@[simp] theorem loadCaqByte_ccyc (b : Byte) (e : Enc) : (loadCaqByte b e).ccyc = false := rfl
@[simp] theorem loadCaqByte_hcs (b : Byte) (e : Enc) : (loadCaqByte b e).hcs = e.hcs := rfl
@[simp] theorem loadCaqByte_fcs (b : Byte) (e : Enc) : (loadCaqByte b e).fcs = e.fcs := rfl
@[simp] theorem loadCaqByte_blen (b : Byte) (e : Enc) : (loadCaqByte b e).blen = e.blen := rfl
@[simp] theorem loadCaqByte_cnt (b : Byte) (e : Enc) : (loadCaqByte b e).cnt = e.cnt := rfl
@[simp] theorem loadCaqByte_hdr (b : Byte) (e : Enc) : (loadCaqByte b e).hdr = e.hdr := rfl
@[simp] theorem loadCaqByte_savedBaud (b : Byte) (e : Enc) : (loadCaqByte b e).savedBaud = e.savedBaud := rfl
@[simp] theorem loadCaqByte_ovr (b : Byte) (e : Enc) : (loadCaqByte b e).ovr = e.ovr := rfl
@[simp] theorem loadCaqByte_blockId (b : Byte) (e : Enc) : (loadCaqByte b e).blockId = e.blockId := rfl
@[simp] theorem loadCaqByte_task (b : Byte) (e : Enc) : (loadCaqByte b e).task = e.task := rfl

@[simp] theorem terminalTick_period (e : Enc) : (terminalTick e).period = 0 := rfl
@[simp] theorem terminalTick_phalf (e : Enc) : (terminalTick e).phalf = e.phalf := rfl
@[simp] theorem terminalTick_mstage (e : Enc) : (terminalTick e).mstage = e.mstage := rfl
@[simp] theorem terminalTick_cstage (e : Enc) : (terminalTick e).cstage = e.cstage := rfl
@[simp] theorem terminalTick_cur (e : Enc) : (terminalTick e).cur = e.cur := rfl
@[simp] theorem terminalTick_loaded (e : Enc) : (terminalTick e).loaded = e.loaded := rfl
@[simp] theorem terminalTick_lead (e : Enc) : (terminalTick e).lead = e.lead := rfl
@[simp] theorem terminalTick_bmask (e : Enc) : (terminalTick e).bmask = e.bmask := rfl
@[simp] theorem terminalTick_bidx (e : Enc) : (terminalTick e).bidx = e.bidx := rfl
@[simp] theorem terminalTick_ccyc (e : Enc) : (terminalTick e).ccyc = e.ccyc := rfl
@[simp] theorem terminalTick_hcs (e : Enc) : (terminalTick e).hcs = e.hcs := rfl
@[simp] theorem terminalTick_fcs (e : Enc) : (terminalTick e).fcs = e.fcs := rfl
@[simp] theorem terminalTick_blen (e : Enc) : (terminalTick e).blen = e.blen := rfl
@[simp] theorem terminalTick_cnt (e : Enc) : (terminalTick e).cnt = e.cnt := rfl
@[simp] theorem terminalTick_hdr (e : Enc) : (terminalTick e).hdr = e.hdr := rfl
@[simp] theorem terminalTick_savedBaud (e : Enc) : (terminalTick e).savedBaud = e.savedBaud := rfl
@[simp] theorem terminalTick_ovr (e : Enc) : (terminalTick e).ovr = e.ovr := rfl
@[simp] theorem terminalTick_blockId (e : Enc) : (terminalTick e).blockId = e.blockId := rfl
@[simp] theorem terminalTick_task (e : Enc) : (terminalTick e).task = TaskCode.eof := rfl

@[simp] theorem doneTick_period (e : Enc) : (doneTick e).period = 0 := rfl
@[simp] theorem doneTick_phalf (e : Enc) : (doneTick e).phalf = e.phalf := rfl
@[simp] theorem doneTick_mstage (e : Enc) : (doneTick e).mstage = e.mstage := rfl
@[simp] theorem doneTick_cstage (e : Enc) : (doneTick e).cstage = e.cstage := rfl
@[simp] theorem doneTick_cur (e : Enc) : (doneTick e).cur = e.cur := rfl
@[simp] theorem doneTick_loaded (e : Enc) : (doneTick e).loaded = e.loaded := rfl
@[simp] theorem doneTick_lead (e : Enc) : (doneTick e).lead = e.lead := rfl
@[simp] theorem doneTick_bmask (e : Enc) : (doneTick e).bmask = e.bmask := rfl
@[simp] theorem doneTick_bidx (e : Enc) : (doneTick e).bidx = e.bidx := rfl
@[simp] theorem doneTick_ccyc (e : Enc) : (doneTick e).ccyc = e.ccyc := rfl
@[simp] theorem doneTick_hcs (e : Enc) : (doneTick e).hcs = e.hcs := rfl
@[simp] theorem doneTick_fcs (e : Enc) : (doneTick e).fcs = e.fcs := rfl
@[simp] theorem doneTick_blen (e : Enc) : (doneTick e).blen = e.blen := rfl
@[simp] theorem doneTick_cnt (e : Enc) : (doneTick e).cnt = e.cnt := rfl
@[simp] theorem doneTick_hdr (e : Enc) : (doneTick e).hdr = e.hdr := rfl
@[simp] theorem doneTick_savedBaud (e : Enc) : (doneTick e).savedBaud = e.savedBaud := rfl
@[simp] theorem doneTick_ovr (e : Enc) : (doneTick e).ovr = e.ovr := rfl
@[simp] theorem doneTick_blockId (e : Enc) : (doneTick e).blockId = e.blockId := rfl
@[simp] theorem doneTick_task (e : Enc) : (doneTick e).task = TaskCode.eof := rfl

@[simp] theorem goTo_period (n : BitVec 5) (e : Enc) : (goTo n e).period = e.period := rfl
@[simp] theorem goTo_phalf (n : BitVec 5) (e : Enc) : (goTo n e).phalf = e.phalf := rfl
@[simp] theorem goTo_mstage (n : BitVec 5) (e : Enc) : (goTo n e).mstage = n := rfl
@[simp] theorem goTo_cstage (n : BitVec 5) (e : Enc) : (goTo n e).cstage = e.cstage := rfl
@[simp] theorem goTo_cur (n : BitVec 5) (e : Enc) : (goTo n e).cur = e.cur := rfl
@[simp] theorem goTo_loaded (n : BitVec 5) (e : Enc) : (goTo n e).loaded = e.loaded := rfl
@[simp] theorem goTo_lead (n : BitVec 5) (e : Enc) : (goTo n e).lead = e.lead := rfl
@[simp] theorem goTo_bmask (n : BitVec 5) (e : Enc) : (goTo n e).bmask = e.bmask := rfl
@[simp] theorem goTo_bidx (n : BitVec 5) (e : Enc) : (goTo n e).bidx = e.bidx := rfl
@[simp] theorem goTo_ccyc (n : BitVec 5) (e : Enc) : (goTo n e).ccyc = e.ccyc := rfl
@[simp] theorem goTo_hcs (n : BitVec 5) (e : Enc) : (goTo n e).hcs = e.hcs := rfl
@[simp] theorem goTo_fcs (n : BitVec 5) (e : Enc) : (goTo n e).fcs = if n = MzfStage.body1 then 0 else e.fcs := rfl
@[simp] theorem goTo_blen (n : BitVec 5) (e : Enc) : (goTo n e).blen = e.blen := rfl
@[simp] theorem goTo_cnt (n : BitVec 5) (e : Enc) : (goTo n e).cnt = 0 := rfl
@[simp] theorem goTo_hdr (n : BitVec 5) (e : Enc) : (goTo n e).hdr = e.hdr := rfl
@[simp] theorem goTo_savedBaud (n : BitVec 5) (e : Enc) : (goTo n e).savedBaud = e.savedBaud := rfl
@[simp] theorem goTo_ovr (n : BitVec 5) (e : Enc) : (goTo n e).ovr = e.ovr := rfl
@[simp] theorem goTo_blockId (n : BitVec 5) (e : Enc) : (goTo n e).blockId = e.blockId := rfl
@[simp] theorem goTo_task (n : BitVec 5) (e : Enc) : (goTo n e).task = if n = MzfStage.terminal then TaskCode.eof else e.task := rfl

@[simp] theorem mzfInitRegisters_period (e : Enc) : (mzfInitRegisters e).period = 0 := rfl
@[simp] theorem mzfInitRegisters_phalf (e : Enc) : (mzfInitRegisters e).phalf = false := rfl
@[simp] theorem mzfInitRegisters_mstage (e : Enc) : (mzfInitRegisters e).mstage = e.mstage := rfl
@[simp] theorem mzfInitRegisters_cstage (e : Enc) : (mzfInitRegisters e).cstage = CaqStage.done := rfl
@[simp] theorem mzfInitRegisters_cur (e : Enc) : (mzfInitRegisters e).cur = e.cur := rfl
@[simp] theorem mzfInitRegisters_loaded (e : Enc) : (mzfInitRegisters e).loaded = false := rfl
@[simp] theorem mzfInitRegisters_lead (e : Enc) : (mzfInitRegisters e).lead = false := rfl
@[simp] theorem mzfInitRegisters_bmask (e : Enc) : (mzfInitRegisters e).bmask = Config.bmaskFirst := rfl
@[simp] theorem mzfInitRegisters_bidx (e : Enc) : (mzfInitRegisters e).bidx = e.bidx := rfl
@[simp] theorem mzfInitRegisters_ccyc (e : Enc) : (mzfInitRegisters e).ccyc = e.ccyc := rfl
@[simp] theorem mzfInitRegisters_hcs (e : Enc) : (mzfInitRegisters e).hcs = e.hcs := rfl
@[simp] theorem mzfInitRegisters_fcs (e : Enc) : (mzfInitRegisters e).fcs = 0 := rfl
@[simp] theorem mzfInitRegisters_blen (e : Enc) : (mzfInitRegisters e).blen = e.blen := rfl
@[simp] theorem mzfInitRegisters_cnt (e : Enc) : (mzfInitRegisters e).cnt = 0 := rfl
@[simp] theorem mzfInitRegisters_hdr (e : Enc) : (mzfInitRegisters e).hdr = e.hdr := rfl
@[simp] theorem mzfInitRegisters_savedBaud (e : Enc) : (mzfInitRegisters e).savedBaud = e.savedBaud := rfl
@[simp] theorem mzfInitRegisters_ovr (e : Enc) : (mzfInitRegisters e).ovr = e.ovr := rfl
@[simp] theorem mzfInitRegisters_blockId (e : Enc) : (mzfInitRegisters e).blockId = BlockCode.mzf := rfl
@[simp] theorem mzfInitRegisters_task (e : Enc) : (mzfInitRegisters e).task = TaskCode.play := rfl

@[simp] theorem caqInitRegisters_period (e : Enc) : (caqInitRegisters e).period = 0 := rfl
@[simp] theorem caqInitRegisters_phalf (e : Enc) : (caqInitRegisters e).phalf = false := rfl
@[simp] theorem caqInitRegisters_mstage (e : Enc) : (caqInitRegisters e).mstage = MzfStage.terminal := rfl
@[simp] theorem caqInitRegisters_cstage (e : Enc) : (caqInitRegisters e).cstage = CaqStage.startBit := rfl
@[simp] theorem caqInitRegisters_cur (e : Enc) : (caqInitRegisters e).cur = e.cur := rfl
@[simp] theorem caqInitRegisters_loaded (e : Enc) : (caqInitRegisters e).loaded = false := rfl
@[simp] theorem caqInitRegisters_lead (e : Enc) : (caqInitRegisters e).lead = e.lead := rfl
@[simp] theorem caqInitRegisters_bmask (e : Enc) : (caqInitRegisters e).bmask = e.bmask := rfl
@[simp] theorem caqInitRegisters_bidx (e : Enc) : (caqInitRegisters e).bidx = 7 := rfl
@[simp] theorem caqInitRegisters_ccyc (e : Enc) : (caqInitRegisters e).ccyc = false := rfl
@[simp] theorem caqInitRegisters_hcs (e : Enc) : (caqInitRegisters e).hcs = e.hcs := rfl
@[simp] theorem caqInitRegisters_fcs (e : Enc) : (caqInitRegisters e).fcs = e.fcs := rfl
@[simp] theorem caqInitRegisters_blen (e : Enc) : (caqInitRegisters e).blen = e.blen := rfl
@[simp] theorem caqInitRegisters_cnt (e : Enc) : (caqInitRegisters e).cnt = e.cnt := rfl
@[simp] theorem caqInitRegisters_hdr (e : Enc) : (caqInitRegisters e).hdr = e.hdr := rfl
@[simp] theorem caqInitRegisters_savedBaud (e : Enc) : (caqInitRegisters e).savedBaud = e.savedBaud := rfl
@[simp] theorem caqInitRegisters_ovr (e : Enc) : (caqInitRegisters e).ovr = e.ovr := rfl
@[simp] theorem caqInitRegisters_blockId (e : Enc) : (caqInitRegisters e).blockId = BlockCode.caq := rfl
@[simp] theorem caqInitRegisters_task (e : Enc) : (caqInitRegisters e).task = TaskCode.play := rfl

@[simp] theorem abandonRegisters_period (e : Enc) : (abandonRegisters e).period = 0 := rfl
@[simp] theorem abandonRegisters_phalf (e : Enc) : (abandonRegisters e).phalf = false := rfl
@[simp] theorem abandonRegisters_mstage (e : Enc) : (abandonRegisters e).mstage = MzfStage.terminal := rfl
@[simp] theorem abandonRegisters_cstage (e : Enc) : (abandonRegisters e).cstage = CaqStage.done := rfl
@[simp] theorem abandonRegisters_cur (e : Enc) : (abandonRegisters e).cur = e.cur := rfl
@[simp] theorem abandonRegisters_loaded (e : Enc) : (abandonRegisters e).loaded = false := rfl
@[simp] theorem abandonRegisters_lead (e : Enc) : (abandonRegisters e).lead = e.lead := rfl
@[simp] theorem abandonRegisters_bmask (e : Enc) : (abandonRegisters e).bmask = e.bmask := rfl
@[simp] theorem abandonRegisters_bidx (e : Enc) : (abandonRegisters e).bidx = e.bidx := rfl
@[simp] theorem abandonRegisters_ccyc (e : Enc) : (abandonRegisters e).ccyc = e.ccyc := rfl
@[simp] theorem abandonRegisters_hcs (e : Enc) : (abandonRegisters e).hcs = e.hcs := rfl
@[simp] theorem abandonRegisters_fcs (e : Enc) : (abandonRegisters e).fcs = e.fcs := rfl
@[simp] theorem abandonRegisters_blen (e : Enc) : (abandonRegisters e).blen = e.blen := rfl
@[simp] theorem abandonRegisters_cnt (e : Enc) : (abandonRegisters e).cnt = e.cnt := rfl
@[simp] theorem abandonRegisters_hdr (e : Enc) : (abandonRegisters e).hdr = e.hdr := rfl
@[simp] theorem abandonRegisters_savedBaud (e : Enc) : (abandonRegisters e).savedBaud = e.savedBaud := rfl
@[simp] theorem abandonRegisters_ovr (e : Enc) : (abandonRegisters e).ovr = e.ovr := rfl
@[simp] theorem abandonRegisters_blockId (e : Enc) : (abandonRegisters e).blockId = BlockCode.none := rfl
@[simp] theorem abandonRegisters_task (e : Enc) : (abandonRegisters e).task = TaskCode.idle := rfl

/-! ### Operations that change a few registers by case: what they leave alone -/

@[simp] theorem pulse_mstage (k : PulseKind) (e : Enc) : (pulse k e).mstage = e.mstage := by unfold pulse; split <;> rfl
@[simp] theorem pulse_cstage (k : PulseKind) (e : Enc) : (pulse k e).cstage = e.cstage := by unfold pulse; split <;> rfl
@[simp] theorem pulse_cur (k : PulseKind) (e : Enc) : (pulse k e).cur = e.cur := by unfold pulse; split <;> rfl
@[simp] theorem pulse_loaded (k : PulseKind) (e : Enc) : (pulse k e).loaded = e.loaded := by unfold pulse; split <;> rfl
@[simp] theorem pulse_lead (k : PulseKind) (e : Enc) : (pulse k e).lead = e.lead := by unfold pulse; split <;> rfl
@[simp] theorem pulse_bmask (k : PulseKind) (e : Enc) : (pulse k e).bmask = e.bmask := by unfold pulse; split <;> rfl
@[simp] theorem pulse_bidx (k : PulseKind) (e : Enc) : (pulse k e).bidx = e.bidx := by unfold pulse; split <;> rfl
@[simp] theorem pulse_ccyc (k : PulseKind) (e : Enc) : (pulse k e).ccyc = e.ccyc := by unfold pulse; split <;> rfl
@[simp] theorem pulse_hcs (k : PulseKind) (e : Enc) : (pulse k e).hcs = e.hcs := by unfold pulse; split <;> rfl
@[simp] theorem pulse_fcs (k : PulseKind) (e : Enc) : (pulse k e).fcs = e.fcs := by unfold pulse; split <;> rfl
@[simp] theorem pulse_blen (k : PulseKind) (e : Enc) : (pulse k e).blen = e.blen := by unfold pulse; split <;> rfl
@[simp] theorem pulse_cnt (k : PulseKind) (e : Enc) : (pulse k e).cnt = e.cnt := by unfold pulse; split <;> rfl
@[simp] theorem pulse_hdr (k : PulseKind) (e : Enc) : (pulse k e).hdr = e.hdr := by unfold pulse; split <;> rfl
@[simp] theorem pulse_savedBaud (k : PulseKind) (e : Enc) : (pulse k e).savedBaud = e.savedBaud := by unfold pulse; split <;> rfl
@[simp] theorem pulse_ovr (k : PulseKind) (e : Enc) : (pulse k e).ovr = e.ovr := by unfold pulse; split <;> rfl
@[simp] theorem pulse_blockId (k : PulseKind) (e : Enc) : (pulse k e).blockId = e.blockId := by unfold pulse; split <;> rfl
@[simp] theorem pulse_task (k : PulseKind) (e : Enc) : (pulse k e).task = e.task := by unfold pulse; split <;> rfl

@[simp] theorem pulse_phalf (k : PulseKind) (e : Enc) : (pulse k e).phalf = !e.phalf := by unfold pulse; cases h : e.phalf <;> rfl
@[simp] theorem pulse_period (k : PulseKind) (e : Enc) : (pulse k e).period = if e.phalf then down k else up k := by unfold pulse; split <;> rfl

@[simp] theorem accumulate_period (src : ByteSource) (b : Byte) (e : Enc) : (accumulate src b e).period = e.period := by unfold accumulate; split <;> rfl
@[simp] theorem accumulate_phalf (src : ByteSource) (b : Byte) (e : Enc) : (accumulate src b e).phalf = e.phalf := by unfold accumulate; split <;> rfl
@[simp] theorem accumulate_mstage (src : ByteSource) (b : Byte) (e : Enc) : (accumulate src b e).mstage = e.mstage := by unfold accumulate; split <;> rfl
@[simp] theorem accumulate_cstage (src : ByteSource) (b : Byte) (e : Enc) : (accumulate src b e).cstage = e.cstage := by unfold accumulate; split <;> rfl
@[simp] theorem accumulate_cur (src : ByteSource) (b : Byte) (e : Enc) : (accumulate src b e).cur = e.cur := by unfold accumulate; split <;> rfl
@[simp] theorem accumulate_loaded (src : ByteSource) (b : Byte) (e : Enc) : (accumulate src b e).loaded = e.loaded := by unfold accumulate; split <;> rfl
@[simp] theorem accumulate_lead (src : ByteSource) (b : Byte) (e : Enc) : (accumulate src b e).lead = e.lead := by unfold accumulate; split <;> rfl
@[simp] theorem accumulate_bmask (src : ByteSource) (b : Byte) (e : Enc) : (accumulate src b e).bmask = e.bmask := by unfold accumulate; split <;> rfl
@[simp] theorem accumulate_bidx (src : ByteSource) (b : Byte) (e : Enc) : (accumulate src b e).bidx = e.bidx := by unfold accumulate; split <;> rfl
@[simp] theorem accumulate_ccyc (src : ByteSource) (b : Byte) (e : Enc) : (accumulate src b e).ccyc = e.ccyc := by unfold accumulate; split <;> rfl
@[simp] theorem accumulate_hcs (src : ByteSource) (b : Byte) (e : Enc) : (accumulate src b e).hcs = e.hcs := by unfold accumulate; split <;> rfl
@[simp] theorem accumulate_blen (src : ByteSource) (b : Byte) (e : Enc) : (accumulate src b e).blen = e.blen := by unfold accumulate; split <;> rfl
@[simp] theorem accumulate_cnt (src : ByteSource) (b : Byte) (e : Enc) : (accumulate src b e).cnt = e.cnt := by unfold accumulate; split <;> rfl
@[simp] theorem accumulate_hdr (src : ByteSource) (b : Byte) (e : Enc) : (accumulate src b e).hdr = e.hdr := by unfold accumulate; split <;> rfl
@[simp] theorem accumulate_savedBaud (src : ByteSource) (b : Byte) (e : Enc) : (accumulate src b e).savedBaud = e.savedBaud := by unfold accumulate; split <;> rfl
@[simp] theorem accumulate_ovr (src : ByteSource) (b : Byte) (e : Enc) : (accumulate src b e).ovr = e.ovr := by unfold accumulate; split <;> rfl
@[simp] theorem accumulate_blockId (src : ByteSource) (b : Byte) (e : Enc) : (accumulate src b e).blockId = e.blockId := by unfold accumulate; split <;> rfl
@[simp] theorem accumulate_task (src : ByteSource) (b : Byte) (e : Enc) : (accumulate src b e).task = e.task := by unfold accumulate; split <;> rfl

@[simp] theorem emitMzfBit_mstage (e : Enc) : (emitMzfBit e).mstage = e.mstage := by unfold emitMzfBit; dsimp only; split <;> split <;> simp
@[simp] theorem emitMzfBit_cstage (e : Enc) : (emitMzfBit e).cstage = e.cstage := by unfold emitMzfBit; dsimp only; split <;> split <;> simp
@[simp] theorem emitMzfBit_cur (e : Enc) : (emitMzfBit e).cur = e.cur := by unfold emitMzfBit; dsimp only; split <;> split <;> simp
@[simp] theorem emitMzfBit_bidx (e : Enc) : (emitMzfBit e).bidx = e.bidx := by unfold emitMzfBit; dsimp only; split <;> split <;> simp
@[simp] theorem emitMzfBit_ccyc (e : Enc) : (emitMzfBit e).ccyc = e.ccyc := by unfold emitMzfBit; dsimp only; split <;> split <;> simp
@[simp] theorem emitMzfBit_hcs (e : Enc) : (emitMzfBit e).hcs = e.hcs := by unfold emitMzfBit; dsimp only; split <;> split <;> simp
@[simp] theorem emitMzfBit_fcs (e : Enc) : (emitMzfBit e).fcs = e.fcs := by unfold emitMzfBit; dsimp only; split <;> split <;> simp
@[simp] theorem emitMzfBit_blen (e : Enc) : (emitMzfBit e).blen = e.blen := by unfold emitMzfBit; dsimp only; split <;> split <;> simp
@[simp] theorem emitMzfBit_cnt (e : Enc) : (emitMzfBit e).cnt = e.cnt := by unfold emitMzfBit; dsimp only; split <;> split <;> simp
@[simp] theorem emitMzfBit_hdr (e : Enc) : (emitMzfBit e).hdr = e.hdr := by unfold emitMzfBit; dsimp only; split <;> split <;> simp
@[simp] theorem emitMzfBit_savedBaud (e : Enc) : (emitMzfBit e).savedBaud = e.savedBaud := by unfold emitMzfBit; dsimp only; split <;> split <;> simp
@[simp] theorem emitMzfBit_ovr (e : Enc) : (emitMzfBit e).ovr = e.ovr := by unfold emitMzfBit; dsimp only; split <;> split <;> simp
@[simp] theorem emitMzfBit_blockId (e : Enc) : (emitMzfBit e).blockId = e.blockId := by unfold emitMzfBit; dsimp only; split <;> split <;> simp
@[simp] theorem emitMzfBit_task (e : Enc) : (emitMzfBit e).task = e.task := by unfold emitMzfBit; dsimp only; split <;> split <;> simp

@[simp] theorem pulseStage_cstage (k : PulseKind) (n : Nat) (next : BitVec 5) (e : Enc) : (pulseStage k n next e).cstage = e.cstage := by unfold pulseStage; dsimp only; split <;> [split; skip] <;> simp
@[simp] theorem pulseStage_cur (k : PulseKind) (n : Nat) (next : BitVec 5) (e : Enc) : (pulseStage k n next e).cur = e.cur := by unfold pulseStage; dsimp only; split <;> [split; skip] <;> simp
@[simp] theorem pulseStage_loaded (k : PulseKind) (n : Nat) (next : BitVec 5) (e : Enc) : (pulseStage k n next e).loaded = e.loaded := by unfold pulseStage; dsimp only; split <;> [split; skip] <;> simp
@[simp] theorem pulseStage_lead (k : PulseKind) (n : Nat) (next : BitVec 5) (e : Enc) : (pulseStage k n next e).lead = e.lead := by unfold pulseStage; dsimp only; split <;> [split; skip] <;> simp
@[simp] theorem pulseStage_bmask (k : PulseKind) (n : Nat) (next : BitVec 5) (e : Enc) : (pulseStage k n next e).bmask = e.bmask := by unfold pulseStage; dsimp only; split <;> [split; skip] <;> simp
@[simp] theorem pulseStage_bidx (k : PulseKind) (n : Nat) (next : BitVec 5) (e : Enc) : (pulseStage k n next e).bidx = e.bidx := by unfold pulseStage; dsimp only; split <;> [split; skip] <;> simp
@[simp] theorem pulseStage_ccyc (k : PulseKind) (n : Nat) (next : BitVec 5) (e : Enc) : (pulseStage k n next e).ccyc = e.ccyc := by unfold pulseStage; dsimp only; split <;> [split; skip] <;> simp
@[simp] theorem pulseStage_hcs (k : PulseKind) (n : Nat) (next : BitVec 5) (e : Enc) : (pulseStage k n next e).hcs = e.hcs := by unfold pulseStage; dsimp only; split <;> [split; skip] <;> simp
@[simp] theorem pulseStage_blen (k : PulseKind) (n : Nat) (next : BitVec 5) (e : Enc) : (pulseStage k n next e).blen = e.blen := by unfold pulseStage; dsimp only; split <;> [split; skip] <;> simp
@[simp] theorem pulseStage_hdr (k : PulseKind) (n : Nat) (next : BitVec 5) (e : Enc) : (pulseStage k n next e).hdr = e.hdr := by unfold pulseStage; dsimp only; split <;> [split; skip] <;> simp
@[simp] theorem pulseStage_savedBaud (k : PulseKind) (n : Nat) (next : BitVec 5) (e : Enc) : (pulseStage k n next e).savedBaud = e.savedBaud := by unfold pulseStage; dsimp only; split <;> [split; skip] <;> simp
@[simp] theorem pulseStage_ovr (k : PulseKind) (n : Nat) (next : BitVec 5) (e : Enc) : (pulseStage k n next e).ovr = e.ovr := by unfold pulseStage; dsimp only; split <;> [split; skip] <;> simp
@[simp] theorem pulseStage_blockId (k : PulseKind) (n : Nat) (next : BitVec 5) (e : Enc) : (pulseStage k n next e).blockId = e.blockId := by unfold pulseStage; dsimp only; split <;> [split; skip] <;> simp

@[simp] theorem caqAdvance_period (st : BitVec 3) (e : Enc) : (caqAdvance st e).period = e.period := by unfold caqAdvance; split <;> [rfl; split] <;> [split; split] <;> rfl
@[simp] theorem caqAdvance_phalf (st : BitVec 3) (e : Enc) : (caqAdvance st e).phalf = e.phalf := by unfold caqAdvance; split <;> [rfl; split] <;> [split; split] <;> rfl
@[simp] theorem caqAdvance_mstage (st : BitVec 3) (e : Enc) : (caqAdvance st e).mstage = e.mstage := by unfold caqAdvance; split <;> [rfl; split] <;> [split; split] <;> rfl
@[simp] theorem caqAdvance_cur (st : BitVec 3) (e : Enc) : (caqAdvance st e).cur = e.cur := by unfold caqAdvance; split <;> [rfl; split] <;> [split; split] <;> rfl
@[simp] theorem caqAdvance_lead (st : BitVec 3) (e : Enc) : (caqAdvance st e).lead = e.lead := by unfold caqAdvance; split <;> [rfl; split] <;> [split; split] <;> rfl
@[simp] theorem caqAdvance_bmask (st : BitVec 3) (e : Enc) : (caqAdvance st e).bmask = e.bmask := by unfold caqAdvance; split <;> [rfl; split] <;> [split; split] <;> rfl
@[simp] theorem caqAdvance_ccyc (st : BitVec 3) (e : Enc) : (caqAdvance st e).ccyc = e.ccyc := by unfold caqAdvance; split <;> [rfl; split] <;> [split; split] <;> rfl
@[simp] theorem caqAdvance_hcs (st : BitVec 3) (e : Enc) : (caqAdvance st e).hcs = e.hcs := by unfold caqAdvance; split <;> [rfl; split] <;> [split; split] <;> rfl
@[simp] theorem caqAdvance_fcs (st : BitVec 3) (e : Enc) : (caqAdvance st e).fcs = e.fcs := by unfold caqAdvance; split <;> [rfl; split] <;> [split; split] <;> rfl
@[simp] theorem caqAdvance_blen (st : BitVec 3) (e : Enc) : (caqAdvance st e).blen = e.blen := by unfold caqAdvance; split <;> [rfl; split] <;> [split; split] <;> rfl
@[simp] theorem caqAdvance_cnt (st : BitVec 3) (e : Enc) : (caqAdvance st e).cnt = e.cnt := by unfold caqAdvance; split <;> [rfl; split] <;> [split; split] <;> rfl
@[simp] theorem caqAdvance_hdr (st : BitVec 3) (e : Enc) : (caqAdvance st e).hdr = e.hdr := by unfold caqAdvance; split <;> [rfl; split] <;> [split; split] <;> rfl
@[simp] theorem caqAdvance_savedBaud (st : BitVec 3) (e : Enc) : (caqAdvance st e).savedBaud = e.savedBaud := by unfold caqAdvance; split <;> [rfl; split] <;> [split; split] <;> rfl
@[simp] theorem caqAdvance_ovr (st : BitVec 3) (e : Enc) : (caqAdvance st e).ovr = e.ovr := by unfold caqAdvance; split <;> [rfl; split] <;> [split; split] <;> rfl
@[simp] theorem caqAdvance_blockId (st : BitVec 3) (e : Enc) : (caqAdvance st e).blockId = e.blockId := by unfold caqAdvance; split <;> [rfl; split] <;> [split; split] <;> rfl
@[simp] theorem caqAdvance_task (st : BitVec 3) (e : Enc) : (caqAdvance st e).task = e.task := by unfold caqAdvance; split <;> [rfl; split] <;> [split; split] <;> rfl

@[simp] theorem caqEmit_mstage (st : BitVec 3) (e : Enc) : (caqEmit st e).mstage = e.mstage := by unfold caqEmit; dsimp only; split <;> [split; skip] <;> simp
@[simp] theorem caqEmit_cur (st : BitVec 3) (e : Enc) : (caqEmit st e).cur = e.cur := by unfold caqEmit; dsimp only; split <;> [split; skip] <;> simp
@[simp] theorem caqEmit_lead (st : BitVec 3) (e : Enc) : (caqEmit st e).lead = e.lead := by unfold caqEmit; dsimp only; split <;> [split; skip] <;> simp
@[simp] theorem caqEmit_bmask (st : BitVec 3) (e : Enc) : (caqEmit st e).bmask = e.bmask := by unfold caqEmit; dsimp only; split <;> [split; skip] <;> simp
@[simp] theorem caqEmit_hcs (st : BitVec 3) (e : Enc) : (caqEmit st e).hcs = e.hcs := by unfold caqEmit; dsimp only; split <;> [split; skip] <;> simp
@[simp] theorem caqEmit_fcs (st : BitVec 3) (e : Enc) : (caqEmit st e).fcs = e.fcs := by unfold caqEmit; dsimp only; split <;> [split; skip] <;> simp
@[simp] theorem caqEmit_blen (st : BitVec 3) (e : Enc) : (caqEmit st e).blen = e.blen := by unfold caqEmit; dsimp only; split <;> [split; skip] <;> simp
@[simp] theorem caqEmit_cnt (st : BitVec 3) (e : Enc) : (caqEmit st e).cnt = e.cnt := by unfold caqEmit; dsimp only; split <;> [split; skip] <;> simp
@[simp] theorem caqEmit_hdr (st : BitVec 3) (e : Enc) : (caqEmit st e).hdr = e.hdr := by unfold caqEmit; dsimp only; split <;> [split; skip] <;> simp
@[simp] theorem caqEmit_savedBaud (st : BitVec 3) (e : Enc) : (caqEmit st e).savedBaud = e.savedBaud := by unfold caqEmit; dsimp only; split <;> [split; skip] <;> simp
@[simp] theorem caqEmit_ovr (st : BitVec 3) (e : Enc) : (caqEmit st e).ovr = e.ovr := by unfold caqEmit; dsimp only; split <;> [split; skip] <;> simp
@[simp] theorem caqEmit_blockId (st : BitVec 3) (e : Enc) : (caqEmit st e).blockId = e.blockId := by unfold caqEmit; dsimp only; split <;> [split; skip] <;> simp
@[simp] theorem caqEmit_task (st : BitVec 3) (e : Enc) : (caqEmit st e).task = e.task := by unfold caqEmit; dsimp only; split <;> [split; skip] <;> simp

end Sys2Proof.Machine
end

