-- ==== Sys2Proof/Laws/Memory.lean ====
section
/-! SUPPORT. The header space: reading after writing, and the canonical form that every operation on it keeps. -/

namespace Sys2Proof.Machine

/-- Reading an address after a write: the byte written there, every other address as before. -/
theorem lookup_insert (m : Memory) (i j : Nat) (b : Byte) :
    Memory.lookup (Memory.insert m i b) j = if j = i then some b else Memory.lookup m j := by
  induction m with
  | nil => simp [Memory.insert, Memory.lookup]
  | cons c m ih =>
    obtain ⟨a, x⟩ := c
    by_cases h : i < a
    · by_cases hj : j = i <;> simp [Memory.insert, Memory.lookup, h, hj]
    · by_cases h' : i = a
      · subst h'
        by_cases hj : j = i <;> simp [Memory.insert, Memory.lookup, hj]
      · by_cases hj : j = a
        · subst hj
          simp [Memory.insert, Memory.lookup, h, h', Ne.symm h']
        · simp [Memory.insert, Memory.lookup, h, h', hj, ih]

/-- Cells that rise from a bound rise from any lower one. -/
theorem risingFrom_mono {lo lo' : Nat} (h : lo' ≤ lo) {m : Memory} (hm : Memory.risingFrom lo m = true) :
    Memory.risingFrom lo' m = true := by
  cases m with
  | nil => rfl
  | cons c m =>
    simp only [Memory.risingFrom, Bool.and_eq_true, decide_eq_true_eq] at hm ⊢
    exact ⟨⟨h.trans hm.1.1, hm.1.2⟩, hm.2⟩

/-- A write at an address of the space, not below the bound, keeps cells rising from the bound. -/
theorem risingFrom_insert {i : Nat} (hi : i < Config.nHdr) (b : Byte) {m : Memory} :
    ∀ {lo : Nat}, lo ≤ i → Memory.risingFrom lo m = true → Memory.risingFrom lo (Memory.insert m i b) = true := by
  induction m with
  | nil =>
    intro lo hlo _
    simp only [Memory.insert, Memory.risingFrom, Bool.and_true, Bool.and_eq_true, decide_eq_true_eq]
    exact ⟨hlo, hi⟩
  | cons c m ih =>
    intro lo hlo hm
    obtain ⟨a, x⟩ := c
    simp only [Memory.risingFrom, Bool.and_eq_true, decide_eq_true_eq] at hm
    by_cases h : i < a
    · simp only [Memory.insert, h, if_true, Memory.risingFrom, Bool.and_eq_true, decide_eq_true_eq]
      exact ⟨⟨hlo, hi⟩, ⟨h, hm.1.2⟩, hm.2⟩
    · by_cases h' : i = a
      · subst h'
        simp only [Memory.insert, h, if_false, if_true, Memory.risingFrom, Bool.and_eq_true, decide_eq_true_eq]
        exact ⟨⟨hlo, hi⟩, hm.2⟩
      · simp only [Memory.insert, h, h', if_false, Memory.risingFrom, Bool.and_eq_true, decide_eq_true_eq]
        exact ⟨hm.1, ih (by omega) hm.2⟩

/-- A write keeps the canonical form. -/
theorem wf_insert {m : Memory} (h : Memory.wf m = true) (i : Fin Config.nHdr) (b : Byte) :
    Memory.wf (Memory.insert m i.val b) = true := risingFrom_insert i.isLt b (Nat.zero_le _) h

/-- `MemWrite` keeps the canonical form. -/
theorem memWrite_wf {s : State} (h : Memory.wf s.enc.hdr = true) (i : Fin Config.nHdr) (b : Byte) :
    Memory.wf (memWrite i b s).enc.hdr = true := wf_insert h i b

/-- Forgetting the header leaves it in canonical form. -/
theorem forgetHeader_wf (s : State) : Memory.wf s.forgetHeader.enc.hdr = true := rfl

/-- The header space is in canonical form after reset. -/
theorem reset_wf : Memory.wf State.reset.enc.hdr = true := rfl

/-- What a byte of the header reads as depends only on the cells and on the unspecified content now in force. -/
theorem memRead_congr {s t : State} (h : t.enc.hdr = s.enc.hdr) (h' : t.freeCtr = s.freeCtr) (i : Fin Config.nHdr) :
    memRead t i = memRead s i := by simp only [memRead, h, h']

end Sys2Proof.Machine
end

