-- ==== Sys2Proof/Laws/Ops.lean ====
section
/-! SUPPORT. One lemma per shared operation that says everything it can do. -/

namespace Sys2Proof.Machine

/-! ### Ports -/

/-- `src_req`, `src_pos` and `baud_we` depend on the event alone; `baud_wdata` is a written value or the free value of the
event's place. -/
theorem requestPorts_spec (n m : Nat) (ev : Event) :
    (requestPorts n ev).srcReq = (requestPorts m ev).srcReq ∧ (requestPorts n ev).srcPos = (requestPorts m ev).srcPos ∧
    (requestPorts n ev).baudWe = (requestPorts m ev).baudWe ∧
    ((∃ v, ev = .baudWrite v ∧ (requestPorts n ev).baudWe = true ∧ (requestPorts n ev).baudWdata = v) ∨
     ((requestPorts n ev).baudWe = false ∧ (requestPorts n ev).baudWdata = Config.baudWdataFree n)) := by
  cases ev with
  | baudWrite v => exact ⟨rfl, rfl, rfl, .inl ⟨v, rfl, rfl, rfl⟩⟩
  | _ => exact ⟨rfl, rfl, rfl, .inr ⟨rfl, rfl⟩⟩

@[simp] theorem srcSeek_fst (pos : SrcPos) (s : State) : (srcSeek pos s).1 = (s.source.seek pos).1 := rfl
@[simp] theorem srcSeek_snd (pos : SrcPos) (s : State) :
    (srcSeek pos s).2 = (s.setSource (s.source.seek pos).2).addEvent (.seek pos (s.source.seek pos).1) := rfl
@[simp] theorem srcRead_fst (s : State) : (srcRead s).1 = s.source.read.1 := rfl
@[simp] theorem srcRead_snd (s : State) :
    (srcRead s).2 = (s.setSource s.source.read.2).addEvent (.read s.source.read.1) := rfl

/-- `SrcRead` in one equation, from what the source answers. -/
theorem srcRead_eq {s : State} {a : Option Byte} {src : Source} (h : s.source.read = (a, src)) :
    srcRead s = (a, (s.setSource src).addEvent (.read a)) := by simp only [srcRead, h]

/-- A READ of the reference source with a byte left. -/
theorem read_image_lt {img : List Byte} {p : Nat} {ok : Bool} (h : p < img.length) :
    (Source.image img p ok).read = (some img[p], .image img (p + 1) ok) := by
  simp only [Source.read, List.getElem?_eq_getElem h]

/-- A READ of the reference source at its end fails and leaves it where it stands. -/
theorem read_image_ge {img : List Byte} {p : Nat} {ok : Bool} (h : img.length ≤ p) :
    (Source.image img p ok).read = (none, .image img p ok) := by
  simp only [Source.read, List.getElem?_eq_none h]

/-- `BaudRestore` writes `BAUD` and clears `OVR` when the override is in force, and does nothing otherwise. -/
theorem baudRestore_eq (s : State) :
    baudRestore s = (if s.enc.ovr then
      { s with baud := s.enc.savedBaud, trace := .baudWrite s.enc.savedBaud :: s.trace, enc := { s.enc with ovr := false } }
      else s) := rfl

@[simp] theorem baudRestore_source (s : State) : (baudRestore s).source = s.source := by
  rw [baudRestore_eq]; split <;> rfl
@[simp] theorem baudRestore_inputs (s : State) : (baudRestore s).inputs = s.inputs := by
  rw [baudRestore_eq]; split <;> rfl
@[simp] theorem baudRestore_freeCtr (s : State) : (baudRestore s).freeCtr = s.freeCtr := by
  rw [baudRestore_eq]; split <;> rfl
@[simp] theorem baudRestore_enc (s : State) : (baudRestore s).enc = { s.enc with ovr := false } := by
  rw [baudRestore_eq]
  cases h : s.enc.ovr with
  | true => rfl
  | false => simp only [Bool.false_eq_true, if_false]; rw [← h]

/-! ### Terminal entry -/

/-- The MZF encoder's terminal entry. -/
theorem enterTerminal_mzf (s : State) :
    enterTerminal .mzf s = s.setEnc { s.enc with mstage := 16, period := 0, task := 2 } := rfl

/-- The CAQ encoder's terminal entry, registers. -/
@[simp] theorem enterTerminal_caq_enc (s : State) :
    (enterTerminal .caq s).enc = { s.enc with cstage := 4, ovr := false, task := 2, period := 0 } := by
  simp only [enterTerminal, mapEnc_enc, baudRestore_enc]; rfl

/-! ### The pulse and the stages -/

/-- `Pulse` while the up half is due. -/
theorem pulse_up {e : Enc} (k : PulseKind) (h : e.phalf = false) : pulse k e = { e with period := up k, phalf := true } := by
  simp only [pulse, h]; rfl

/-- `Pulse` while the down half is due. -/
theorem pulse_down {e : Enc} (k : PulseKind) (h : e.phalf = true) :
    pulse k e = { e with period := down k, phalf := false } := by
  simp only [pulse, h, if_true]

/-- One tick of a pulse-counted stage: an up half, a down half that counts, or the last down half, which enters the next stage. -/
theorem pulseStage_cases (k : PulseKind) (n : Nat) (next : BitVec 5) (e : Enc) :
    (e.phalf = false ∧ pulseStage k n next e = { e with period := up k, phalf := true }) ∨
    (e.phalf = true ∧ e.cnt + 1 ≠ BitVec.ofNat 16 n ∧
      pulseStage k n next e = { e with period := down k, phalf := false, cnt := e.cnt + 1 }) ∨
    (e.phalf = true ∧ e.cnt + 1 = BitVec.ofNat 16 n ∧
      pulseStage k n next e = goTo next { e with period := down k, phalf := false }) := by
  cases h : e.phalf with
  | false => exact .inl ⟨rfl, by simp only [pulseStage, pulseCompletes, h, pulse_up k h]; rfl⟩
  | true =>
    by_cases hn : e.cnt + 1 = BitVec.ofNat 16 n
    · exact .inr (.inr ⟨rfl, hn, by
        simp only [pulseStage, pulseCompletes, h, lastPulse, hn, beq_self_eq_true, if_true, pulse_down k h]⟩)
    · have hb : lastPulse n e = false := by simpa [lastPulse] using hn
      exact .inr (.inl ⟨rfl, hn, by
        simp only [pulseStage, pulseCompletes, h, hb, if_true, pulse_down k h]; rfl⟩)

/-- `EmitMzfBit`: the two halves of the leader, the up half of a data pulse, or its down half, the eighth of which ends the byte. -/
theorem emitMzfBit_cases (e : Enc) :
    (e.lead = false ∧ e.phalf = false ∧ emitMzfBit e = { e with period := Config.tLU, phalf := true }) ∨
    (e.lead = false ∧ e.phalf = true ∧ emitMzfBit e = { e with period := Config.tLD, phalf := false, lead := true }) ∨
    (e.lead = true ∧ e.phalf = false ∧
      emitMzfBit e = { e with period := up (mzfKind (mzfDataBit e)), phalf := true }) ∨
    (e.lead = true ∧ e.phalf = true ∧ e.bmask ≠ 0x01 ∧
      emitMzfBit e = { e with period := down (mzfKind (mzfDataBit e)), phalf := false, bmask := e.bmask >>> 1 }) ∨
    (e.lead = true ∧ e.phalf = true ∧ e.bmask = 0x01 ∧
      emitMzfBit e = { e with
        period := down (mzfKind (mzfDataBit e)), phalf := false, bmask := e.bmask >>> 1, loaded := false }) := by
  cases hl : e.lead <;> cases hp : e.phalf
  · exact .inl ⟨rfl, rfl, by simp only [emitMzfBit, pulseCompletes, hl, hp, pulse_up _ hp]; rfl⟩
  · exact .inr (.inl ⟨rfl, rfl, by simp only [emitMzfBit, pulseCompletes, hl, hp, pulse_down _ hp]; rfl⟩)
  · exact .inr (.inr (.inl ⟨rfl, rfl, by
      simp only [emitMzfBit, pulseCompletes, hl, hp, pulse_up _ hp]; rfl⟩))
  · by_cases hm : e.bmask = 0x01
    · have hb : lastDataPulse e = true := by simpa [lastDataPulse, Config.bmaskLast] using hm
      exact .inr (.inr (.inr (.inr ⟨rfl, rfl, hm, by
        simp only [emitMzfBit, pulseCompletes, hl, hp, hb, if_true, pulse_down _ hp]⟩)))
    · have hb : lastDataPulse e = false := by simpa [lastDataPulse, Config.bmaskLast] using hm
      exact .inr (.inr (.inr (.inl ⟨rfl, rfl, hm, by
        simp only [emitMzfBit, pulseCompletes, hl, hp, hb, if_true, pulse_down _ hp]; rfl⟩)))

/-- `NextByte` gives none or a byte; it touches only the source and the trace, and those only in the body, by at most
one READ made while `CNT < BLEN`. -/
theorem nextByte_cases (src : ByteSource) (s : State) :
    (∃ a, nextByte src s = (a, s) ∧ (src = .body → a = none ∧ ¬ s.enc.cnt < s.enc.blen)) ∨
    (src = .body ∧ s.enc.cnt < s.enc.blen ∧ ∃ b, s.source.read.1 = some b ∧ nextByte src s = (some b, (srcRead s).2)) ∨
    (src = .body ∧ s.enc.cnt < s.enc.blen ∧ s.source.read.1 = none ∧
      nextByte src s = (none, raise .streamExhausted (srcRead s).2)) := by
  cases src with
  | header => exact .inl ⟨_, rfl, by simp⟩
  | headerChecksum => exact .inl ⟨_, rfl, by simp⟩
  | bodyChecksum => exact .inl ⟨_, rfl, by simp⟩
  | body =>
    by_cases h : s.enc.cnt < s.enc.blen
    · right
      cases hr : s.source.read.1 with
      | some b =>
        refine .inl ⟨rfl, h, b, rfl, ?_⟩
        have : srcRead s = (some b, (srcRead s).2) := by rw [← hr]; rfl
        simp only [nextByte, h, if_true]; rw [this]
      | none =>
        refine .inr ⟨rfl, h, rfl, ?_⟩
        have : srcRead s = (none, (srcRead s).2) := by rw [← hr]; rfl
        simp only [nextByte, h, if_true]; rw [this]
    · exact .inl ⟨none, by simp only [nextByte, h, if_false], fun _ => ⟨rfl, h⟩⟩

/-- One tick of a byte-producing stage: a byte in progress emits; a byte is loaded and its leader begins; or the stage
is exhausted and the zero tick enters the next stage. -/
theorem byteStage_cases (src : ByteSource) (next : BitVec 5) (s : State) :
    (s.enc.loaded = true ∧ byteStage src next s = s.mapEnc emitMzfBit) ∨
    (s.enc.loaded = false ∧ ∃ b s', nextByte src s = (some b, s') ∧
      byteStage src next s = s'.mapEnc fun e => emitMzfBit (accumulate src b (loadMzfByte b e))) ∨
    (s.enc.loaded = false ∧ ∃ s', nextByte src s = (none, s') ∧
      byteStage src next s = s'.mapEnc fun e => goTo next { e with period := 0 }) := by
  cases h : s.enc.loaded with
  | true => exact .inl ⟨rfl, by simp only [byteStage, loadOrExhaust, h, if_true]⟩
  | false =>
    right
    match hn : nextByte src s with
    | (some b, s') =>
      exact .inl ⟨rfl, b, s', rfl, by simp only [byteStage, loadOrExhaust, h, hn]; rfl⟩
    | (none, s') =>
      exact .inr ⟨rfl, s', rfl, by simp only [byteStage, loadOrExhaust, h, hn]; rfl⟩

/-! ### CAQ -/

/-- `CaqEmit`: an up half, the down half of a bit's first cycle, or that of its second, which advances. -/
theorem caqEmit_cases (st : BitVec 3) (e : Enc) :
    (e.phalf = false ∧ caqEmit st e = { e with period := up (caqKind (caqBit st e)), phalf := true }) ∨
    (e.phalf = true ∧ e.ccyc = false ∧
      caqEmit st e = { e with period := down (caqKind (caqBit st e)), phalf := false, ccyc := true }) ∨
    (e.phalf = true ∧ e.ccyc = true ∧
      caqEmit st e =
        caqAdvance st { e with period := down (caqKind (caqBit st e)), phalf := false, ccyc := false }) := by
  cases hp : e.phalf
  · exact .inl ⟨rfl, by simp only [caqEmit, pulseCompletes, hp, pulse_up _ hp]; rfl⟩
  · cases hc : e.ccyc
    · have hl : lastCycle e = false := by simp [lastCycle, hc, Config.caqCycles]
      exact .inr (.inl ⟨rfl, rfl, by simp only [caqEmit, pulseCompletes, hp, hl, if_true, pulse_down _ hp]; rfl⟩)
    · have hl : lastCycle e = true := by simp [lastCycle, hc, Config.caqCycles]
      exact .inr (.inr ⟨rfl, rfl, by simp only [caqEmit, pulseCompletes, hp, hl, if_true, pulse_down _ hp]⟩)

/-- The tick of a live CAQ stage: a byte in progress emits; a byte is loaded and its start bit begins; or the source is
exhausted and the session completes. -/
theorem caqStageTick_cases (st : BitVec 3) (s : State) :
    (s.enc.loaded = true ∧ caqStageTick st s = s.mapEnc (caqEmit st)) ∨
    (s.enc.loaded = false ∧ ∃ b, s.source.read.1 = some b ∧
      caqStageTick st s = (srcRead s).2.mapEnc fun e => caqEmit CaqStage.startBit (loadCaqByte b e)) ∨
    (s.enc.loaded = false ∧ s.source.read.1 = none ∧ caqStageTick st s = caqExhausted (srcRead s).2) := by
  cases h : s.enc.loaded with
  | true => exact .inl ⟨rfl, by simp only [caqStageTick, caqLoad, h, if_true]⟩
  | false =>
    right
    cases hr : s.source.read.1 with
    | some b =>
      have : srcRead s = (some b, (srcRead s).2) := by rw [← hr]; rfl
      exact .inl ⟨rfl, b, rfl, by simp only [caqStageTick, caqLoad, h]; rw [this]; rfl⟩
    | none =>
      have : srcRead s = (none, (srcRead s).2) := by rw [← hr]; rfl
      exact .inr ⟨rfl, rfl, by simp only [caqStageTick, caqLoad, h]; rw [this]; rfl⟩

/-! ### MZF_INIT -/

/-- `readHeader` changes only `HDR`, the source and the trace, and keeps the header space in canonical form. -/
theorem readHeader_frame (n : Nat) : ∀ (i : Nat) (s : State),
    (readHeader n i s).2.enc = { s.enc with hdr := (readHeader n i s).2.enc.hdr } ∧
    (readHeader n i s).2.baud = s.baud ∧ (readHeader n i s).2.inputs = s.inputs ∧
    (readHeader n i s).2.freeCtr = s.freeCtr ∧
    (Memory.wf s.enc.hdr = true → Memory.wf (readHeader n i s).2.enc.hdr = true) := by
  induction n with
  | zero => intro i s; exact ⟨rfl, rfl, rfl, rfl, id⟩
  | succ n ih =>
    intro i s
    match hr : srcRead s with
    | (none, s') =>
      have hs : s' = (srcRead s).2 := by rw [hr]
      simp only [readHeader, hr]
      subst hs
      exact ⟨rfl, rfl, rfl, rfl, id⟩
    | (some b, s') =>
      have hs : s' = (srcRead s).2 := by rw [hr]
      simp only [readHeader, hr]
      obtain ⟨h1, h2, h3, h4, h5⟩ := ih (i + 1) (memWrite (Fin.ofNat Config.nHdr i) b s')
      refine ⟨?_, h2.trans ?_, h3.trans ?_, h4.trans ?_, fun hw => h5 (memWrite_wf ?_ _ _)⟩
      · rw [h1]; subst hs; rfl
      all_goals subst hs
      · rfl
      · rfl
      · rfl
      · exact hw

/-- MZF_INIT answers a next state: after a failed SEEK, after a short read, or after the whole header. -/
theorem execMzfInit_cases (s : State) :
    ((s.source.seek Config.mzfHdrPos).1 = false ∧
      execMzfInit s = .next (mzfInitFail (srcSeek Config.mzfHdrPos (s.mapEnc mzfInitRegisters)).2)) ∨
    ((s.source.seek Config.mzfHdrPos).1 = true ∧ ∃ ok s',
      readHeader Config.nHdr 0 (srcSeek Config.mzfHdrPos (s.mapEnc mzfInitRegisters)).2 = (ok, s') ∧
      execMzfInit s = .next (if ok then mzfInitSucceed s' else mzfInitFail s')) := by
  match hs : srcSeek Config.mzfHdrPos (s.mapEnc mzfInitRegisters) with
  | (false, t) =>
    have : (s.source.seek Config.mzfHdrPos).1 = false := congrArg Prod.fst hs
    exact .inl ⟨this, by simp only [execMzfInit, hs]⟩
  | (true, t) =>
    have : (s.source.seek Config.mzfHdrPos).1 = true := congrArg Prod.fst hs
    refine .inr ⟨this, (readHeader Config.nHdr 0 t).1, (readHeader Config.nHdr 0 t).2, rfl, ?_⟩
    simp only [execMzfInit, hs]
    match hr : readHeader Config.nHdr 0 t with
    | (false, u) => rfl
    | (true, u) => rfl

/-! ### The ticks' dispatch and the step -/

/-- MZF_TICK runs the row of `MZF_TABLE` that `MSTAGE` selects. -/
theorem execMzfTick_table (s : State) :
    execMzfTick s = .next (match mzfTable s.enc.mstage with
      | .pulses k n next => s.mapEnc (pulseStage k n next)
      | .bytes src next => byteStage src next s
      | .terminal => s.mapEnc terminalTick) := by
  unfold execMzfTick mzfTable
  have hlt : s.enc.mstage.toNat < 32 := s.enc.mstage.isLt
  generalize s.enc.mstage.toNat = m at hlt
  interval_cases m <;> rfl

/-- CAQ_TICK runs the live tick of its stage for the codes below 4 and `DoneTick` for the others. -/
theorem execCaqTick_stage (s : State) :
    execCaqTick s = .next (if s.enc.cstage.toNat < 4 then caqStageTick s.enc.cstage s else s.mapEnc doneTick) := by
  unfold execCaqTick
  have hlt : s.enc.cstage.toNat < 8 := s.enc.cstage.isLt
  have hv : s.enc.cstage = BitVec.ofNat 3 s.enc.cstage.toNat := by simp
  rw [hv]
  generalize s.enc.cstage.toNat = m at hlt
  interval_cases m <;> rfl

/-- Everything a step can do: nothing; a host action that is no command; a command. -/
theorem step_cases (s : State) :
    (s.inputs = [] ∧ step s = .next s) ∨
    (∃ op rest, s.inputs = .command op :: rest ∧ step s = exec (decodeCommand op) (s.setInputs rest)) ∨
    (∃ i rest, s.inputs = i :: rest ∧ (∀ op, i ≠ .command op) ∧ step s = .next (applyHostInput i (s.setInputs rest))) := by
  match h : s.inputs with
  | [] => exact .inl ⟨rfl, by simp only [step, nextInput, h]⟩
  | .command op :: rest => exact .inr (.inl ⟨op, rest, rfl, by simp only [step, nextInput, h]⟩)
  | .reset :: rest => exact .inr (.inr ⟨_, rest, rfl, by simp, by simp only [step, nextInput, h]⟩)
  | .setBaud v :: rest => exact .inr (.inr ⟨_, rest, rfl, by simp, by simp only [step, nextInput, h]⟩)
  | .setSource src :: rest => exact .inr (.inr ⟨_, rest, rfl, by simp, by simp only [step, nextInput, h]⟩)

/-- What a command code decodes to (30_encoding.md R91). -/
theorem decodeCommand_eq (op : CmdOp) :
    decodeCommand op = (match op.toNat with
      | 0 => .nop | 1 => .mzfInit | 2 => .mzfTick | 3 => .caqInit | 4 => .caqTick | 5 => .abandon
      | x => .reservedCmd (x - 6)) := by
  revert op; decide

end Sys2Proof.Machine
end

