-- ==== Sys2Proof/Laws/PerInstr.lean ====
section
/-! SUPPORT. Statements made per instruction, one lemma for each constructor of `Instr`. -/

namespace Sys2Proof.Laws

/-- The code of a well-formed instruction fits its format's width (30_encoding.md R90, R92, R96). -/
def EncodeFits.Statement (i : Instr) : Prop := i.wf = true → (encode i).2 < 2 ^ (encode i).1.width

/-- A well-formed don't-care operand fits the bits its row leaves open. -/
theorem dontCare_lt {i : Instr} (h : i.wf = true) : i.dontCare.2 < 2 ^ i.dontCare.1 := of_decide_eq_true h

theorem EncodeFits.nop : EncodeFits.Statement .nop := fun _ => by decide
theorem EncodeFits.mzfInit : EncodeFits.Statement .mzfInit := fun _ => by decide
theorem EncodeFits.mzfTick : EncodeFits.Statement .mzfTick := fun _ => by decide
theorem EncodeFits.caqInit : EncodeFits.Statement .caqInit := fun _ => by decide
theorem EncodeFits.caqTick : EncodeFits.Statement .caqTick := fun _ => by decide
theorem EncodeFits.abandon : EncodeFits.Statement .abandon := fun _ => by decide
theorem EncodeFits.reservedCmd (x : Nat) : EncodeFits.Statement (.reservedCmd x) := fun h => by
  have := dontCare_lt h
  simp only [Instr.dontCare, encode, Format.width] at this ⊢
  omega
theorem EncodeFits.mzfLgap : EncodeFits.Statement .mzfLgap := fun _ => by decide
theorem EncodeFits.mzfLtmL : EncodeFits.Statement .mzfLtmL := fun _ => by decide
theorem EncodeFits.mzfLtmS : EncodeFits.Statement .mzfLtmS := fun _ => by decide
theorem EncodeFits.mzfLtmE : EncodeFits.Statement .mzfLtmE := fun _ => by decide
theorem EncodeFits.mzfHdr1 : EncodeFits.Statement .mzfHdr1 := fun _ => by decide
theorem EncodeFits.mzfHcs1 : EncodeFits.Statement .mzfHcs1 := fun _ => by decide
theorem EncodeFits.mzfHdr2 : EncodeFits.Statement .mzfHdr2 := fun _ => by decide
theorem EncodeFits.mzfHcs2 : EncodeFits.Statement .mzfHcs2 := fun _ => by decide
theorem EncodeFits.mzfSgap : EncodeFits.Statement .mzfSgap := fun _ => by decide
theorem EncodeFits.mzfStmL : EncodeFits.Statement .mzfStmL := fun _ => by decide
theorem EncodeFits.mzfStmS : EncodeFits.Statement .mzfStmS := fun _ => by decide
theorem EncodeFits.mzfStmE : EncodeFits.Statement .mzfStmE := fun _ => by decide
theorem EncodeFits.mzfBody1 : EncodeFits.Statement .mzfBody1 := fun _ => by decide
theorem EncodeFits.mzfFcs1 : EncodeFits.Statement .mzfFcs1 := fun _ => by decide
theorem EncodeFits.mzfBody2 : EncodeFits.Statement .mzfBody2 := fun _ => by decide
theorem EncodeFits.mzfFcs2 : EncodeFits.Statement .mzfFcs2 := fun _ => by decide
theorem EncodeFits.mzfTerminal : EncodeFits.Statement .mzfTerminal := fun _ => by decide
theorem EncodeFits.mzfReserved10001 : EncodeFits.Statement .mzfReserved10001 := fun _ => by decide
theorem EncodeFits.mzfReserved1001x (x : Nat) : EncodeFits.Statement (.mzfReserved1001x x) := fun h => by
  have := dontCare_lt h
  simp only [Instr.dontCare, encode, Format.width] at this ⊢
  omega
theorem EncodeFits.mzfReserved101xx (x : Nat) : EncodeFits.Statement (.mzfReserved101xx x) := fun h => by
  have := dontCare_lt h
  simp only [Instr.dontCare, encode, Format.width] at this ⊢
  omega
theorem EncodeFits.mzfReserved11xxx (x : Nat) : EncodeFits.Statement (.mzfReserved11xxx x) := fun h => by
  have := dontCare_lt h
  simp only [Instr.dontCare, encode, Format.width] at this ⊢
  omega
theorem EncodeFits.caqStartBit : EncodeFits.Statement .caqStartBit := fun _ => by decide
theorem EncodeFits.caqDataBits : EncodeFits.Statement .caqDataBits := fun _ => by decide
theorem EncodeFits.caqStopBit1 : EncodeFits.Statement .caqStopBit1 := fun _ => by decide
theorem EncodeFits.caqStopBit2 : EncodeFits.Statement .caqStopBit2 := fun _ => by decide
theorem EncodeFits.caqDone : EncodeFits.Statement .caqDone := fun _ => by decide
theorem EncodeFits.caqReserved101 : EncodeFits.Statement .caqReserved101 := fun _ => by decide
theorem EncodeFits.caqReserved11x (x : Nat) : EncodeFits.Statement (.caqReserved11x x) := fun h => by
  have := dontCare_lt h
  simp only [Instr.dontCare, encode, Format.width] at this ⊢
  omega
theorem EncodeFits.pulseShort : EncodeFits.Statement .pulseShort := fun _ => by decide
theorem EncodeFits.pulseLong : EncodeFits.Statement .pulseLong := fun _ => by decide
theorem EncodeFits.pulseSpace : EncodeFits.Statement .pulseSpace := fun _ => by decide
theorem EncodeFits.pulseMark : EncodeFits.Statement .pulseMark := fun _ => by decide

end Sys2Proof.Laws
end

