-- ==== Sys2Proof/Laws/Stages.lean ====
section
/-! SUPPORT. Facts about `MZF_TABLE`, what the stage operations leave alone, and runs of one command. -/

namespace Sys2Proof.Machine

/-- The pulse-counted rows of `MZF_TABLE`: the count is a positive 16-bit number, and the next stage is the one after. -/
theorem mzfTable_pulses {c next : BitVec 5} {k : PulseKind} {n : Nat} (h : mzfTable c = .pulses k n next) :
    0 < n ∧ n < 65536 ∧ next.toNat = c.toNat + 1 ∧ next.toNat ≤ 12 := by
  revert h
  unfold mzfTable
  have hlt : c.toNat < 32 := c.isLt
  generalize c.toNat = m at hlt
  interval_cases m <;> (intro h; first | (cases h; decide) | cases h)

/-- The byte-producing rows of `MZF_TABLE`: the next stage is the one after, or TERMINAL after FCS1. -/
theorem mzfTable_bytes {c next : BitVec 5} {src : ByteSource} (h : mzfTable c = .bytes src next) :
    c.toNat ≤ 13 ∧ (next.toNat = c.toNat + 1 ∧ next.toNat ≤ 13 ∨ c.toNat = 13 ∧ next = MzfStage.terminal) := by
  revert h
  unfold mzfTable
  have hlt : c.toNat < 32 := c.isLt
  generalize c.toNat = m at hlt
  interval_cases m <;> (intro h; first | (cases h; decide) | cases h)

/-- The terminal rows of `MZF_TABLE`: TERMINAL, the retained codes and the reserved ones. -/
theorem mzfTable_terminal {c : BitVec 5} (h : mzfTable c = .terminal) : 14 ≤ c.toNat := by
  revert h
  unfold mzfTable
  have hlt : c.toNat < 32 := c.isLt
  generalize c.toNat = m at hlt
  interval_cases m <;> (intro h; first | omega | cases h)

/-- `NextByte` writes no register and, but for the body's source, touches nothing. -/
theorem nextByte_frame {src : ByteSource} {s s' : State} {a : Option Byte} (h : nextByte src s = (a, s')) :
    s'.enc = s.enc ∧ s'.baud = s.baud ∧ s'.inputs = s.inputs ∧ s'.freeCtr = s.freeCtr ∧ (src ≠ .body → s' = s) := by
  rcases nextByte_cases src s with ⟨a', ha, _⟩ | ⟨hb, _, b, _, hd⟩ | ⟨hb, _, _, hd⟩
  · rw [h] at ha; cases ha; exact ⟨rfl, rfl, rfl, rfl, fun _ => rfl⟩
  · rw [h] at hd; cases hd; exact ⟨rfl, rfl, rfl, rfl, fun hne => absurd hb hne⟩
  · rw [h] at hd; cases hd; exact ⟨rfl, rfl, rfl, rfl, fun hne => absurd hb hne⟩

/-- Emitting a half of an MZF byte flips `PHALF`. -/
@[simp] theorem emitMzfBit_phalf (e : Enc) : (emitMzfBit e).phalf = !e.phalf := by
  rcases emitMzfBit_cases e with ⟨_, h, h'⟩ | ⟨_, h, h'⟩ | ⟨_, h, h'⟩ | ⟨_, h, _, h'⟩ | ⟨_, h, _, h'⟩ <;> rw [h'] <;> simp [h]

/-- Emitting a half of a CAQ bit flips `PHALF`. -/
@[simp] theorem caqEmit_phalf (st : BitVec 3) (e : Enc) : (caqEmit st e).phalf = !e.phalf := by
  rcases caqEmit_cases st e with ⟨h, h'⟩ | ⟨h, _, h'⟩ | ⟨h, _, h'⟩ <;> rw [h'] <;> simp [h]

/-- A tick of a pulse-counted stage flips `PHALF`. -/
@[simp] theorem pulseStage_phalf (k : PulseKind) (n : Nat) (next : BitVec 5) (e : Enc) :
    (pulseStage k n next e).phalf = !e.phalf := by
  rcases pulseStage_cases k n next e with ⟨h, h'⟩ | ⟨h, _, h'⟩ | ⟨h, _, h'⟩ <;> rw [h'] <;> simp [h, goTo]

/-- What `CaqEmit` may write. -/
theorem caqEmit_frame (st : BitVec 3) (e : Enc) :
    ∃ c b l p h y, caqEmit st e = { e with cstage := c, bidx := b, loaded := l, period := p, phalf := h, ccyc := y } := by
  have adv : ∀ e : Enc, ∃ c b l, caqAdvance st e = { e with cstage := c, bidx := b, loaded := l } := by
    intro e
    unfold caqAdvance
    split
    · exact ⟨_, e.bidx, e.loaded, rfl⟩
    split
    · split
      · exact ⟨_, e.bidx, e.loaded, rfl⟩
      · exact ⟨e.cstage, _, e.loaded, rfl⟩
    split
    · exact ⟨_, e.bidx, e.loaded, rfl⟩
    · exact ⟨e.cstage, e.bidx, _, rfl⟩
  rcases caqEmit_cases st e with ⟨_, h⟩ | ⟨_, _, h⟩ | ⟨_, _, h⟩ <;> rw [h]
  · exact ⟨e.cstage, e.bidx, e.loaded, _, _, e.ccyc, rfl⟩
  · exact ⟨e.cstage, e.bidx, e.loaded, _, _, _, rfl⟩
  · obtain ⟨c, b, l, h'⟩ := adv { e with period := down (caqKind (caqBit st e)), phalf := false, ccyc := false }
    rw [h']
    exact ⟨c, b, l, _, _, _, rfl⟩

/-- A run of one command, one command longer. -/
theorem repeatExec_succ {i : Instr} {n : Nat} {s t u : State} {ps : List Period} (h : exec i s = .next t)
    (h' : repeatExec i n t = .next (ps, u)) : repeatExec i (n + 1) s = .next (t.enc.period :: ps, u) := by
  simp only [repeatExec, h, h']

/-- Two runs of one command, one after the other. -/
theorem repeatExec_append {i : Instr} {m n : Nat} : ∀ {s t u : State} {ps qs : List Period},
    repeatExec i m s = .next (ps, t) → repeatExec i n t = .next (qs, u) →
      repeatExec i (m + n) s = .next (ps ++ qs, u) := by
  induction m with
  | zero =>
    intro s t u ps qs h h'
    simp only [repeatExec, Host.Outcome.next.injEq, Prod.mk.injEq] at h
    obtain ⟨rfl, rfl⟩ := h
    rw [Nat.zero_add]; exact h'
  | succ m ih =>
    intro s t u ps qs h h'
    simp only [repeatExec] at h
    split at h
    · rename_i s1 hs1
      split at h
      · rename_i ps1 t1 hr
        simp only [Host.Outcome.next.injEq, Prod.mk.injEq] at h
        obtain ⟨rfl, rfl⟩ := h
        rw [Nat.succ_add]
        exact repeatExec_succ hs1 (ih hr h')
      · cases h
      · cases h
    · cases h
    · cases h

end Sys2Proof.Machine
end

