-- ==== Sys2Proof/Tests/Slice0.lean ====
section
/-! SUPPORT. Our own tests: ill-formed terms, codes written out from the encoding tables of 30_encoding.md, single steps
with the results 95_test_vectors.md and the rules give, and for each statement with hypotheses a state that meets them. -/

namespace Sys2Proof.Tests

open Sys2Proof.Machine

/-! ### Helpers -/

/-- The state an instruction leads to. -/
def after (i : Instr) (s : State) : State :=
  match exec i s with
  | .next t => t
  | .fault _ => s
  | .refused _ => s

/-- A state in stage `m` of a live MZF session. -/
def mzfAt (m : BitVec 5) : State := State.reset.setEnc { Enc.reset with mstage := m, blockId := 1, task := 1 }

/-- A state in stage `c` of a live CAQ session of an overridden host rate `1200`. -/
def caqAt (c : BitVec 3) : State :=
  { State.reset with
    enc := { Enc.reset with cstage := c, blockId := 2, task := 1, ovr := true, savedBaud := 1200 }
    baud := 600 }

/-- The state with other registers. -/
def regs (f : Enc → Enc) (s : State) : State := s.mapEnc f

/-- The state over the reference source at a position. -/
def onImage (img : List Byte) (p : Nat) (s : State) : State := s.setSource (.image img p true)

/-- The image `H3` of 95_test_vectors.md: a header with body length 3, and the body 0x00, 0xFF, 0x81. -/
def h3 : List Byte := List.replicate 18 0 ++ [0x03] ++ List.replicate 109 0 ++ [0x00, 0xFF, 0x81]

/-- A header space with every byte specified as 0. -/
def zeroHeader : Memory := (List.range 128).map fun i => (i, 0)

/-! ### WellFormed: an operand that does not fit its row's don't-care bits is refused -/

theorem test_wf_refuses_reservedCmd_2 : (Instr.reservedCmd 2).wf = false := by decide
theorem test_wf_refuses_mzfReserved1001x_2 : (Instr.mzfReserved1001x 2).wf = false := by decide
theorem test_wf_refuses_mzfReserved101xx_4 : (Instr.mzfReserved101xx 4).wf = false := by decide
theorem test_wf_refuses_mzfReserved11xxx_8 : (Instr.mzfReserved11xxx 8).wf = false := by decide
theorem test_wf_refuses_caqReserved11x_2 : (Instr.caqReserved11x 2).wf = false := by decide

/-! ### Decode: every row's code, written out from 30_encoding.md R91, R93, R95, R96 -/

theorem test_decode_commands :
    [0b000, 0b001, 0b010, 0b011, 0b100, 0b101, 0b110, 0b111].map (decode .cmd) =
      [.ok .nop, .ok .mzfInit, .ok .mzfTick, .ok .caqInit, .ok .caqTick, .ok .abandon,
       .ok (.reservedCmd 0), .ok (.reservedCmd 1)] := by rfl

theorem test_decode_mzf_pulse_stages :
    [0b00000, 0b00001, 0b00010, 0b00011, 0b01000, 0b01001, 0b01010, 0b01011].map (decode .mzfStage) =
      [.ok .mzfLgap, .ok .mzfLtmL, .ok .mzfLtmS, .ok .mzfLtmE, .ok .mzfSgap, .ok .mzfStmL, .ok .mzfStmS, .ok .mzfStmE] := by
  rfl

theorem test_decode_mzf_byte_stages :
    [0b00100, 0b00101, 0b00110, 0b00111, 0b01100, 0b01101].map (decode .mzfStage) =
      [.ok .mzfHdr1, .ok .mzfHcs1, .ok .mzfHdr2, .ok .mzfHcs2, .ok .mzfBody1, .ok .mzfFcs1] := by rfl

theorem test_decode_mzf_terminal_stages :
    [0b01110, 0b01111, 0b10000, 0b10001, 0b10010, 0b10011, 0b10100, 0b10111, 0b11000, 0b11111].map (decode .mzfStage) =
      [.ok .mzfBody2, .ok .mzfFcs2, .ok .mzfTerminal, .ok .mzfReserved10001, .ok (.mzfReserved1001x 0),
       .ok (.mzfReserved1001x 1), .ok (.mzfReserved101xx 0), .ok (.mzfReserved101xx 3), .ok (.mzfReserved11xxx 0),
       .ok (.mzfReserved11xxx 7)] := by rfl

theorem test_decode_caq_stages :
    [0b000, 0b001, 0b010, 0b011, 0b100, 0b101, 0b110, 0b111].map (decode .caqStage) =
      [.ok .caqStartBit, .ok .caqDataBits, .ok .caqStopBit1, .ok .caqStopBit2, .ok .caqDone, .ok .caqReserved101,
       .ok (.caqReserved11x 0), .ok (.caqReserved11x 1)] := by rfl

theorem test_decode_pulse_kinds :
    [0b00, 0b01, 0b10, 0b11].map (decode .pulseKind) =
      [.ok .pulseShort, .ok .pulseLong, .ok .pulseSpace, .ok .pulseMark] := by rfl

theorem test_decode_rejects_wide_words :
    decode .cmd 8 = .error (.tooWide .cmd 8) ∧ decode .mzfStage 32 = .error (.tooWide .mzfStage 32) ∧
    decode .caqStage 8 = .error (.tooWide .caqStage 8) ∧ decode .pulseKind 4 = .error (.tooWide .pulseKind 4) :=
  ⟨rfl, rfl, rfl, rfl⟩

theorem test_encode_writes_the_codes :
    encode .abandon = (.cmd, 0b101) ∧ encode .mzfBody1 = (.mzfStage, 0b01100) ∧ encode .caqStopBit2 = (.caqStage, 0b011) ∧
    encode .pulseMark = (.pulseKind, 0b11) := ⟨rfl, rfl, rfl, rfl⟩

theorem test_tableWord_reads_a_command : decodeTableWord 8 0b010 = some .mzfTick := by rfl
theorem test_tableWord_reads_a_wide_stage : decodeTableWord 8 0b01101 = some .mzfFcs1 := by rfl

/-! ### Single steps, results from 95_test_vectors.md and the rules it cites -/

/-- A step runs the word placed on the port (R112): MZF_TICK at TERMINAL writes `TASK` EOF (R189). -/
theorem test_step_runs_a_placed_word :
    (match step (State.reset.withFetchWord 8 0b010) with | .next t => t.enc.task | _ => 3) = 2 := by decide

/-- A placed stage word runs as the stage `MSTAGE` selects: FCS1 at `CNT` 0 of `FCS` 0x000A loads 0x00 (CK-9). -/
theorem test_step_runs_a_placed_stage :
    (match step ((regs (fun e => { e with fcs := 0x000A }) State.reset).withFetchWord 8 0b01101) with
      | .next t => (t.enc.cur, t.enc.cnt, t.enc.loaded) | _ => (0xFF, 0, false)) = (0x00, 1, true) := by decide

/-- PUL-9. -/
theorem test_nop_keeps_the_half_pulse :
    (after .nop (regs (fun e => { e with phalf := true, period := 464 }) State.reset)).enc.period = 464 := by decide

/-- R106. -/
theorem test_reserved_command_keeps_the_half_pulse :
    (after (.reservedCmd 1) (regs (fun e => { e with phalf := true, period := 464 }) State.reset)).enc.phalf = true := by
  decide

/-- PUL-1, PUL-2. -/
theorem test_pulse_long :
    (after .pulseLong State.reset).enc.period = Config.tLU ∧
    (after .pulseLong (after .pulseLong State.reset)).enc.period = Config.tLD := ⟨rfl, rfl⟩
/-- PUL-3, PUL-4. -/
theorem test_pulse_short :
    (after .pulseShort State.reset).enc.period = Config.tSU ∧
    (after .pulseShort (after .pulseShort State.reset)).enc.period = Config.tSD := ⟨rfl, rfl⟩
/-- PUL-5, PUL-6. -/
theorem test_pulse_mark :
    (after .pulseMark State.reset).enc.phalf = true ∧ (after .pulseMark (after .pulseMark State.reset)).enc.phalf = false ∧
    (after .pulseMark (after .pulseMark State.reset)).enc.period = Config.tMark := ⟨rfl, rfl, rfl⟩
/-- PUL-7, PUL-8. -/
theorem test_pulse_space :
    (after .pulseSpace State.reset).enc.phalf = true ∧
    (after .pulseSpace (after .pulseSpace State.reset)).enc.phalf = false ∧
    (after .pulseSpace State.reset).enc.period = Config.tSpace := ⟨rfl, rfl, rfl⟩

/-- CUR-1. -/
theorem test_hdr1_loads_byte_five :
    let s := regs (fun e => { e with cnt := 5, hdr := [(5, 0x41)] }) (mzfAt 4)
    (after .mzfTick s).enc.cur = 0x41 ∧ (after .mzfTick s).enc.bmask = 0x80 ∧ (after .mzfTick s).enc.cnt = 6 ∧
      (after .mzfTick s).enc.period = Config.tLU ∧ (after .mzfTick s).enc.phalf = true := ⟨rfl, rfl, rfl, rfl, rfl⟩
/-- CUR-9. -/
theorem test_hdr1_ends_after_128 :
    (after .mzfHdr1 (regs (fun e => { e with cnt := 128 }) (mzfAt 4))).enc.mstage = 5 ∧
    (after .mzfHdr1 (regs (fun e => { e with cnt := 128 }) (mzfAt 4))).enc.period = 0 := ⟨rfl, rfl⟩
/-- R173, R138: the second copy reads the same buffer. -/
theorem test_hdr2_loads_the_last_byte :
    (after .mzfHdr2 (regs (fun e => { e with cnt := 127, hdr := [(127, 0x5A)] }) (mzfAt 6))).enc.cur = 0x5A := by rfl
/-- CUR-6, CUR-7. -/
theorem test_hcs1_high_byte_then_low :
    (after .mzfHcs1 (regs (fun e => { e with hcs := 0x0102 }) (mzfAt 5))).enc.cur = 0x01 ∧
    (after .mzfHcs1 (regs (fun e => { e with hcs := 0x0102, cnt := 1 }) (mzfAt 5))).enc.cur = 0x02 := ⟨rfl, rfl⟩
/-- CUR-8. -/
theorem test_hcs1_ends_after_two :
    (after .mzfHcs1 (regs (fun e => { e with cnt := 2 }) (mzfAt 5))).enc.mstage = 6 ∧
    (after .mzfHcs1 (regs (fun e => { e with cnt := 2 }) (mzfAt 5))).enc.task = 1 := ⟨rfl, rfl⟩
/-- R174. -/
theorem test_hcs2_enters_sgap : (after .mzfHcs2 (regs (fun e => { e with cnt := 2 }) (mzfAt 7))).enc.mstage = 8 := by rfl
/-- CUR-5: the last data pulse of 0x81. -/
theorem test_last_data_pulse :
    let s := regs (fun e => { e with cur := 0x81, loaded := true, lead := true, bmask := 0x01, phalf := true }) (mzfAt 12)
    (after .mzfBody1 s).enc.period = Config.tLD ∧ (after .mzfBody1 s).enc.loaded = false ∧
      (after .mzfBody1 s).enc.bmask = 0x00 := ⟨rfl, rfl, rfl⟩
/-- CK-8: the accumulator wraps on the load of a body byte. -/
theorem test_body_byte_is_accumulated :
    let s := onImage [0xFF] 0 (regs (fun e => { e with fcs := 0xFFFC, blen := 1 }) (mzfAt 12))
    (after .mzfBody1 s).enc.fcs = 0x0004 ∧ (after .mzfBody1 s).source = .image [0xFF] 1 true := by decide
/-- R180: the stage after FCS1 is TERMINAL. -/
theorem test_fcs1_ends_the_session :
    (after .mzfFcs1 (regs (fun e => { e with cnt := 2 }) (mzfAt 13))).enc.mstage = 16 ∧
    (after .mzfFcs1 (regs (fun e => { e with cnt := 2 }) (mzfAt 13))).enc.task = 2 := ⟨rfl, rfl⟩

/-- R167: the last pulse of the long gap. -/
theorem test_lgap_last_pulse :
    let s := regs (fun e => { e with cnt := 21999, phalf := true }) (mzfAt 0)
    (after .mzfLgap s).enc.mstage = 1 ∧ (after .mzfLgap s).enc.cnt = 0 ∧ (after .mzfLgap s).enc.period = Config.tSD :=
  ⟨rfl, rfl, rfl⟩
/-- R168. -/
theorem test_ltmL_counts : (after .mzfLtmL (regs (fun e => { e with cnt := 38, phalf := true }) (mzfAt 1))).enc.cnt = 39 := by
  rfl
/-- R169. -/
theorem test_ltmS_enters_ltmE :
    (after .mzfLtmS (regs (fun e => { e with cnt := 39, phalf := true }) (mzfAt 2))).enc.mstage = 3 := by rfl
/-- R170. -/
theorem test_ltmE_is_one_long_pulse :
    (after .mzfLtmE (regs (fun e => { e with phalf := true }) (mzfAt 3))).enc.mstage = 4 ∧
    (after .mzfLtmE (mzfAt 3)).enc.period = Config.tLU := ⟨rfl, rfl⟩
/-- R175. -/
theorem test_sgap_enters_stmL :
    (after .mzfSgap (regs (fun e => { e with cnt := 10999, phalf := true }) (mzfAt 8))).enc.mstage = 9 := by rfl
/-- R176. -/
theorem test_stmL_enters_stmS :
    (after .mzfStmL (regs (fun e => { e with cnt := 19, phalf := true }) (mzfAt 9))).enc.mstage = 10 := by rfl
/-- R177. -/
theorem test_stmS_counts : (after .mzfStmS (regs (fun e => { e with cnt := 18, phalf := true }) (mzfAt 10))).enc.cnt = 19 := by
  rfl
/-- R178, CK-10: entering BODY1 clears `FCS`. -/
theorem test_stmE_clears_fcs :
    (after .mzfStmE (regs (fun e => { e with fcs := 0x1234, phalf := true }) (mzfAt 11))).enc.fcs = 0 ∧
    (after .mzfStmE (regs (fun e => { e with phalf := true }) (mzfAt 11))).enc.mstage = 12 := ⟨rfl, rfl⟩
/-- R181 to R183, R189: `PERIOD` 0 and `TASK` EOF. -/
theorem test_terminal_rows :
    [Instr.mzfBody2, .mzfFcs2, .mzfTerminal, .mzfReserved10001, .mzfReserved1001x 1, .mzfReserved101xx 3,
      .mzfReserved11xxx 7, .caqDone, .caqReserved101, .caqReserved11x 1].map
        (fun i => ((after i (regs (fun e => { e with period := 1 }) State.reset)).enc.period,
          (after i State.reset).enc.task)) = List.replicate 10 (0, 2) := by decide

/-- R160 on the image `H3`: `HCS` 2, `BLEN` 3, stage LGAP, source at 128. -/
theorem test_mzfInit_reads_h3 :
    let t := after .mzfInit (onImage h3 7 State.reset)
    t.enc.hcs = 2 ∧ t.enc.blen = 3 ∧ t.enc.mstage = 0 ∧ t.enc.task = 1 ∧ t.source = .image h3 128 true := by
  set_option maxRecDepth 20000 in decide
/-- R160, R252: a failed SEEK makes no READ. -/
theorem test_mzfInit_seek_fails :
    (after .mzfInit State.reset).enc.mstage = 16 ∧ (after .mzfInit State.reset).enc.task = 2 ∧
    (after .mzfInit State.reset).enc.blockId = 1 ∧
    (after .mzfInit State.reset).trace = [.raised .storageAccessFailure, .seek 0 false] := ⟨rfl, rfl, rfl, rfl⟩

/-- CAQ-1: the rate 1200 is saved and 600 forced. -/
theorem test_caqInit_saves_and_forces :
    let t := after .caqInit { State.reset with baud := 1200 }
    t.baud = 600 ∧ t.enc.savedBaud = 1200 ∧ t.enc.ovr = true ∧ t.enc.cstage = 0 ∧ t.enc.bidx = 7 := by decide
/-- R202: a second CAQ_INIT keeps the saved rate. -/
theorem test_caqInit_is_idempotent :
    (after .caqInit (after .caqInit { State.reset with baud := 3600 })).enc.savedBaud = 3600 := by decide
/-- R206, R209: the load and the start bit's first half are one tick. -/
theorem test_caqTick_loads :
    let t := after .caqTick (onImage [0xA5] 0 (caqAt 0))
    t.enc.cur = 0xA5 ∧ t.enc.bidx = 7 ∧ t.enc.period = Config.tSpace := ⟨rfl, rfl, rfl⟩
/-- R206: an exhausted source completes the session and restores the rate. -/
theorem test_caqTick_completes :
    let t := after .caqTick (caqAt 3)
    t.baud = 1200 ∧ t.enc.cstage = 4 ∧ t.enc.task = 2 ∧ t.enc.ovr = false := by decide
/-- R209. -/
theorem test_startBit_advances :
    (after .caqStartBit (regs (fun e => { e with loaded := true, phalf := true, ccyc := true }) (caqAt 0))).enc.cstage = 1 := by
  rfl
/-- R210: bit 0 is the last data bit. -/
theorem test_dataBits_end :
    let s := regs (fun e => { e with cur := 0xA5, loaded := true, phalf := true, ccyc := true }) (caqAt 1)
    (after .caqDataBits s).enc.cstage = 2 ∧ (after .caqDataBits s).enc.period = Config.tMark := ⟨rfl, rfl⟩
/-- R211. -/
theorem test_stopBit1_advances :
    (after .caqStopBit1 (regs (fun e => { e with loaded := true, phalf := true, ccyc := true }) (caqAt 2))).enc.cstage = 3 := by
  rfl
/-- R212: the byte is over and the stage stays until the next tick. -/
theorem test_stopBit2_releases_the_byte :
    let t := after .caqStopBit2 (regs (fun e => { e with loaded := true, phalf := true, ccyc := true }) (caqAt 3))
    t.enc.loaded = false ∧ t.enc.cstage = 3 := ⟨rfl, rfl⟩
/-- R233. -/
theorem test_abandon_restores :
    (after .abandon (caqAt 1)).baud = 1200 ∧ (after .abandon (caqAt 1)).enc.cstage = 4 ∧
    (after .abandon (caqAt 1)).enc.task = 0 := by decide
/-- R281: reset loses the saved rate. -/
theorem test_reset_keeps_the_forced_rate :
    (match step ((caqAt 1).setInputs [.reset]) with | .next t => (t.baud, t.enc.ovr, t.enc.task) | _ => (0, true, 3)) =
      (600, false, 0) := by decide
/-- CK-1, CK-3. -/
theorem test_popcounts :
    [0x00, 0x01, 0x03, 0x0A, 0x0F, 0x55, 0x80, 0x81, 0xA5, 0xFE, 0xFF].map popcount8 = [0, 1, 2, 2, 4, 4, 1, 2, 4, 7, 8] ∧
    checksum [0x00, 0xFF, 0x81] = 10 := by decide
/-- CK-11. -/
theorem test_blen_is_little_endian :
    bodyLength (regs (fun e => { e with hdr := [(18, 0x34), (19, 0x12)] }) State.reset) = 0x1234 := by decide

/-! ### Witnesses: for each statement of the obligations with hypotheses, states and operands that meet them -/

/-- A live MZF session at stage `m` with no byte in progress meets the invariant. -/
theorem inv_mzfAt (m : BitVec 5) (cnt blen : Word) (hm : m.toNat ≤ 13)
    (hc : stageCursorOk { Enc.reset with mstage := m, blockId := 1, task := 1, cnt := cnt, blen := blen }) :
    StateInv (State.reset.setEnc { Enc.reset with mstage := m, blockId := 1, task := 1, cnt := cnt, blen := blen }) :=
  ⟨.inl hm, (by decide : (4 : BitVec 3).toNat ≤ 4), .inr rfl, List.mem_cons_self, fun _ _ => ⟨rfl, rfl⟩, hc,
    fun h => absurd h (by decide : ¬ caqLive Enc.reset = true), (by decide : (1 : BitVec 2) ≠ 3),
    (by decide : (1 : BitVec 2) ≠ 3), rfl⟩

theorem witness_DecodeEncodeAgree :
    (Instr.reservedCmd 1).wf = true ∧ (Instr.mzfReserved1001x 1).wf = true ∧ (Instr.mzfReserved101xx 3).wf = true ∧
    (Instr.mzfReserved11xxx 7).wf = true ∧ (Instr.caqReserved11x 1).wf = true ∧ Instr.mzfBody1.wf = true := by decide
theorem witness_DecodedWordsEncodeBack :
    decode .cmd 7 = .ok (.reservedCmd 1) ∧ decode .mzfStage 31 = .ok (.mzfReserved11xxx 7) ∧
    decode .caqStage 7 = .ok (.caqReserved11x 1) ∧ decode .pulseKind 3 = .ok .pulseMark := ⟨rfl, rfl, rfl, rfl⟩
theorem witness_EveryCodeOfAFormatDecodes :
    7 < 2 ^ Format.cmd.width ∧ 2 ^ Format.cmd.width ≤ 8 ∧ 31 < 2 ^ Format.mzfStage.width ∧ 2 ^ Format.pulseKind.width ≤ 4 := by
  decide
theorem witness_OpcodeRowsDisjoint : (31 : Nat) < 2 ^ Format.mzfStage.width := by decide
theorem witness_StepRunsTheDecodedCommand :
    (State.reset.setInputs [.command 0b111]).inputs = .command 0b111 :: [] ∧
    decode .cmd (0b111 : CmdOp).toNat = .ok (.reservedCmd 1) := ⟨rfl, rfl⟩
theorem witness_StepOfAnIdlePortOrAHostWrite :
    State.reset.inputs = [] ∧ (State.reset.setInputs [.setBaud 65535]).inputs = [.setBaud 65535] ∧
    (State.reset.setInputs [.setSource (.oracle [] 0)]).inputs = [.setSource (.oracle [] 0)] := ⟨rfl, rfl, rfl⟩
theorem witness_TicksRunTheSelectedStage :
    decode .mzfStage (mzfAt 0).enc.mstage.toNat = .ok .mzfLgap ∧
    decode .mzfStage (mzfAt 31).enc.mstage.toNat = .ok (.mzfReserved11xxx 7) ∧
    decode .caqStage (caqAt 0).enc.cstage.toNat = .ok .caqStartBit ∧
    decode .caqStage (caqAt 7).enc.cstage.toNat = .ok (.caqReserved11x 1) := ⟨rfl, rfl, rfl, rfl⟩
theorem witness_ResetPutsEveryRegisterAtItsResetValue : ((caqAt 1).setInputs [.reset]).inputs = [.reset] := rfl
theorem witness_EveryLegalTimingHasACode :
    (1 : Period) ≠ 0 ∧ (65535 : Period) ≠ 0 ∧ (1 ≤ 1 ∧ 1 < 2 ∧ 2 ≤ 65535) ∧ (1 ≤ 65534 ∧ 65534 < 65535 ∧ 65535 ≤ 65535) := by
  decide
theorem witness_PulseEmitsOneHalf :
    State.reset.enc.phalf = false ∧ (after .pulseMark State.reset).enc.phalf = true := ⟨rfl, rfl⟩
theorem witness_ChecksumIsARunningSum : (List.replicate 128 (0xFF : Byte)).length = 128 := List.length_replicate
theorem witness_AbandonRestoresAndDiscards : (caqAt 1).enc.ovr = true ∧ State.reset.enc.ovr = false := ⟨rfl, rfl⟩
theorem witness_MzfInitReadsTheHeader :
    (onImage (List.replicate 128 0) 5 State.reset).source = .image (List.replicate 128 0) 5 true ∧
    128 ≤ (List.replicate 128 (0 : Byte)).length := ⟨rfl, by rw [List.length_replicate]⟩
theorem witness_MzfInitSeekFailureEndsTheSession :
    (State.reset.source.seek 0).1 = false ∧ ((State.reset.setSource (.oracle [⟨false, 0⟩] 0)).source.seek 0).1 = false :=
  ⟨rfl, rfl⟩
theorem witness_MzfInitShortReadEndsTheSession :
    ((onImage (List.replicate 127 0) 0 State.reset).source = .image (List.replicate 127 0) 0 true ∧
      (List.replicate 127 (0 : Byte)).length < 128) ∧
    (onImage [] 0 State.reset).source = .image [] 0 true ∧ ([] : List Byte).length < 128 :=
  ⟨⟨rfl, by rw [List.length_replicate]; decide⟩, rfl, by decide⟩
/-- Up half, a counted down half one short of the count, and the last down half. -/
theorem witness_PulseStagesEmitAndCount :
    ((mzfAt 0).enc.mstage = 0 ∧ (mzfAt 0).enc.phalf = false) ∧
    ((regs (fun e => { e with cnt := 21998, phalf := true }) (mzfAt 0)).enc.phalf = true ∧
      (21998 : Word) + 1 ≠ BitVec.ofNat 16 22000) ∧
    ((regs (fun e => { e with cnt := 21999, phalf := true }) (mzfAt 0)).enc.phalf = true ∧
      (21999 : Word) + 1 = BitVec.ofNat 16 22000) := by decide
theorem witness_PulseStageLastsTwiceItsCount :
    mzfTable 3 = .pulses .long 1 4 ∧ (mzfAt 3).enc.mstage = 3 ∧ (mzfAt 3).enc.cnt = 0 ∧ (mzfAt 3).enc.phalf = false :=
  ⟨rfl, rfl, rfl, rfl⟩
/-- The first and the last header byte, and both bytes of a checksum. -/
theorem witness_CachedStagesLoadTheNextByte :
    (mzfAt 4).enc.loaded = false ∧ (mzfAt 4).enc.phalf = false ∧
    (mzfAt 4).enc.cnt = BitVec.ofNat 16 (0 : Fin Config.nHdr).val ∧
    (regs (fun e => { e with cnt := 127 }) (mzfAt 6)).enc.cnt = BitVec.ofNat 16 (127 : Fin Config.nHdr).val ∧
    ((0x01 : Byte).toNat = (0x0102 : Word).toNat / 256 ∧ (0x02 : Byte).toNat = (0x0102 : Word).toNat % 256) ∧
    (regs (fun e => { e with cnt := 1 }) (mzfAt 13)).enc.cnt = 1 := by decide
theorem witness_BodyStageLoadsAndAccumulates :
    let s := onImage [0x81] 0 (regs (fun e => { e with cnt := 65534, blen := 65535 }) (mzfAt 12))
    s.enc.mstage = 12 ∧ s.enc.loaded = false ∧ s.enc.phalf = false ∧ s.enc.cnt < s.enc.blen ∧
      s.source.read = (some 0x81, .image [0x81] 1 true) := by decide
/-- The count at the limit of each kind of stage, `BLEN` 0 among them, and a READ that fails one byte short. -/
theorem witness_ByteStagesEndWithAZeroTick :
    (mzfAt 12).enc.loaded = false ∧ 128 ≤ (regs (fun e => { e with cnt := 128 }) (mzfAt 4)).enc.cnt.toNat ∧
    2 ≤ (regs (fun e => { e with cnt := 2 }) (mzfAt 13)).enc.cnt.toNat ∧
    (mzfAt 12).enc.blen.toNat ≤ (mzfAt 12).enc.cnt.toNat ∧
    (let s := regs (fun e => { e with cnt := 2, blen := 3 }) (mzfAt 12)
     s.enc.cnt < s.enc.blen ∧ s.source.read = (none, .image [] 0 false)) := by decide
theorem witness_ByteInProgressEmitsItsPulses :
    let s := fun lead phalf bmask => regs (fun e => { e with loaded := true, lead := lead, phalf := phalf, bmask := bmask }) (mzfAt 13)
    (s false false 0x80).enc.loaded = true ∧ (s false true 0x80).enc.lead = false ∧ (s true false 0x80).enc.lead = true ∧
    ((s true true 0x02).enc.phalf = true ∧ (s true true 0x02).enc.bmask ≠ 0x01) ∧ (s true true 0x01).enc.bmask = 0x01 := by
  decide
theorem witness_BodyByteTakesEighteenTicks :
    let s := onImage [0x81] 0 (regs (fun e => { e with blen := 1 }) (mzfAt 12))
    s.enc.mstage = 12 ∧ s.enc.loaded = false ∧ s.enc.phalf = false ∧ s.enc.cnt < s.enc.blen ∧
      s.source.read = (some 0x81, .image [0x81] 1 true) := by decide
theorem witness_TerminalTicksOnlyReportEndOfFile :
    14 ≤ (mzfAt 14).enc.mstage.toNat ∧ 14 ≤ (mzfAt 31).enc.mstage.toNat ∧ 4 ≤ (caqAt 4).enc.cstage.toNat ∧
    4 ≤ (caqAt 7).enc.cstage.toNat := by decide
theorem witness_CaqInitForcesTheBaudRate : State.reset.enc.ovr = false ∧ (caqAt 2).enc.ovr = true := ⟨rfl, rfl⟩
theorem witness_SecondCaqInitKeepsTheSavedBaud :
    ∃ t u, exec .caqInit State.reset = .next t ∧ exec .caqInit t = .next u ∧ State.reset.enc.ovr = false :=
  ⟨_, _, rfl, rfl, rfl⟩
theorem witness_CaqStagesLoadTheNextByte :
    let s := onImage [0xA5] 0 (caqAt 3)
    s.enc.cstage.toNat < 4 ∧ s.enc.loaded = false ∧ s.enc.phalf = false ∧
      s.source.read = (some 0xA5, .image [0xA5] 1 true) := by decide
theorem witness_CaqExhaustionCompletesTheSession :
    (caqAt 3).enc.cstage.toNat < 4 ∧ (caqAt 3).enc.loaded = false ∧ (caqAt 3).source.read = (none, .image [] 0 false) ∧
    (caqAt 3).enc.ovr = true ∧ (regs (fun e => { e with ovr := false }) (caqAt 3)).enc.ovr = false := by decide
/-- Each stage code with every half of a bit, and the data bits at the last bit and before it. -/
theorem witness_CaqStagesEmitTheirBits :
    let s := fun c phalf ccyc bidx =>
      regs (fun e => { e with loaded := true, phalf := phalf, ccyc := ccyc, bidx := bidx }) (caqAt c)
    ∀ code ∈ [(0 : BitVec 3), 1, 2, 3], ∀ phalf ccyc : Bool, ∀ bidx ∈ [(0 : BitVec 3), 7],
      (s code phalf ccyc bidx).enc.cstage = code ∧ (s code phalf ccyc bidx).enc.loaded = true ∧
      (s code phalf ccyc bidx).enc.phalf = phalf ∧ (s code phalf ccyc bidx).enc.ccyc = ccyc ∧
      (s code phalf ccyc bidx).enc.bidx = bidx := by decide
theorem witness_CaqByteTakesFortyFourTicks :
    let s := onImage [0xA5] 0 (caqAt 0)
    s.enc.cstage.toNat < 4 ∧ s.enc.loaded = false ∧ s.enc.phalf = false ∧
      s.source.read = (some 0xA5, .image [0xA5] 1 true) := by decide
/-- Two bytes left, and none left. -/
theorem witness_CaqSessionSendsEveryByteAndRestoresBaud :
    (onImage [0xA5, 0x00] 0 State.reset).source = .image [0xA5, 0x00] 0 true ∧ 0 ≤ [(0xA5 : Byte), 0x00].length ∧
    (onImage [0xA5] 1 State.reset).source = .image [0xA5] 1 true ∧ 1 ≤ [(0xA5 : Byte)].length := by decide
/-- A live session at the last pulse count of the long gap, and one at the end of its body. -/
theorem witness_StepKeepsTheInvariant :
    StateInv (State.reset.setEnc { Enc.reset with mstage := 0, blockId := 1, task := 1, cnt := 21999 }) ∧
    StateInv (State.reset.setEnc { Enc.reset with mstage := 12, blockId := 1, task := 1, cnt := 3, blen := 3 }) ∧
    ∃ t, step (State.reset.setEnc { Enc.reset with mstage := 0, blockId := 1, task := 1, cnt := 21999 }) = .next t :=
  ⟨inv_mzfAt _ _ _ (by decide) ⟨by decide, rfl⟩,
   inv_mzfAt _ _ _ (by decide) ⟨by decide, fun _ => rfl, fun h => absurd h (by decide)⟩, _, rfl⟩
theorem zeroHeader_specified : ∀ i : Fin Config.nHdr, (Memory.lookup zeroHeader i.val).isSome = true := by
  set_option maxRecDepth 20000 in decide
theorem witness_StepKeepsTheHeaderSnapshot :
    let s := regs (fun e => { e with hdr := zeroHeader }) (mzfAt 6)
    HeaderSnapshot s ∧ mzfLive s.enc = true ∧ ∃ t, step s = .next t :=
  ⟨fun _ => ⟨by set_option maxRecDepth 20000 in decide, by decide, zeroHeader_specified⟩, by decide, _, rfl⟩
theorem witness_StepKeepsTheForcedBaud :
    BaudForced (caqAt 0) ∧ hostKeepsBaud (caqAt 0) ∧ (caqAt 0).enc.ovr = true ∧ ∃ t, step (caqAt 0) = .next t :=
  ⟨fun _ => rfl, fun _ _ _ h => absurd h (List.cons_ne_nil _ _).symm, rfl, _, rfl⟩
theorem witness_MzfTicksWriteOnlyTheirRegisters :
    ∃ t, exec .mzfTick (mzfAt 0) = .next t ∧ ∃ u, exec .mzfFcs1 (mzfAt 13) = .next u ∧ (encode .mzfFcs1).1 = .mzfStage :=
  ⟨_, rfl, _, rfl, rfl⟩
theorem witness_CaqTicksWriteOnlyTheirRegisters :
    ∃ t, exec .caqTick (caqAt 3) = .next t ∧ ∃ u, exec .caqDone (caqAt 4) = .next u ∧ (encode .caqDone).1 = .caqStage :=
  ⟨_, rfl, _, rfl, rfl⟩
theorem witness_MzfInitWritesOnlyItsRegisters : ∃ t, exec .mzfInit State.reset = .next t := ⟨_, rfl⟩
theorem witness_OnlyCaqAndAbandonTouchTheBaud :
    (∃ t, exec .mzfTick (mzfAt 0) = .next t) ∧ Instr.mzfTick ≠ .caqInit ∧ Instr.mzfTick ≠ .caqTick ∧
    Instr.mzfTick ≠ .abandon ∧ (encode .mzfTick).1 ≠ .caqStage := ⟨⟨_, rfl⟩, by decide⟩
theorem witness_MzfStagesOnlyMoveForward :
    (mzfAt 0).enc.mstage.toNat ≤ 13 ∧ (mzfAt 13).enc.mstage.toNat ≤ 13 ∧ ∃ t, exec .mzfTick (mzfAt 13) = .next t :=
  ⟨by decide, by decide, _, rfl⟩
set_option maxRecDepth 20000 in
/-- A step that leaves TERMINAL, and one that leaves DONE. -/
theorem witness_OnlyInitLeavesTheTerminalState :
    (let s := (onImage h3 0 State.reset).setInputs [.command 0b001]
     s.enc.mstage = 16 ∧ ∃ t, step s = .next t ∧ t.enc.mstage ≠ 16) ∧
    (let s := State.reset.setInputs [.command 0b011]
     s.enc.cstage = 4 ∧ ∃ t, step s = .next t ∧ t.enc.cstage ≠ 4) :=
  ⟨⟨rfl, _, rfl, by set_option maxRecDepth 20000 in decide⟩, rfl, _, rfl, by decide⟩
theorem witness_TicksEmitOnlyTheirProtocolsConstants :
    (∃ t, exec .mzfTick (mzfAt 0) = .next t) ∧ ∃ t, exec .caqTick (caqAt 0) = .next t := ⟨⟨_, rfl⟩, _, rfl⟩
theorem witness_HandOffRegistersChangeAsListed :
    (∃ t, exec .mzfInit State.reset = .next t) ∧ (∃ t, exec .caqInit State.reset = .next t) ∧
    (∃ t, exec .abandon State.reset = .next t) ∧ (∃ t, exec .mzfTick (mzfAt 13) = .next t) ∧
    ∃ t, exec .caqTick (caqAt 3) = .next t := ⟨⟨_, rfl⟩, ⟨_, rfl⟩, ⟨_, rfl⟩, ⟨_, rfl⟩, _, rfl⟩
/-- The zero tick of HCS1, and the tick after it. -/
theorem witness_NoTwoZeroTicksInARow :
    let s := State.reset.setEnc { Enc.reset with mstage := 5, blockId := 1, task := 1, cnt := 2 }
    StateInv s ∧ ∃ t u, exec .mzfTick s = .next t ∧ t.enc.period = 0 ∧ t.enc.mstage ≠ 16 ∧ exec .mzfTick t = .next u :=
  ⟨inv_mzfAt _ _ _ (by decide) ⟨by decide, fun _ => rfl, fun h => absurd h (by decide)⟩, _, _, rfl, rfl, by decide, rfl⟩
/-- A zero tick of each encoder, live. -/
theorem witness_LiveZeroTicksLeaveNoHalfPulse :
    (let s := State.reset.setEnc { Enc.reset with mstage := 5, blockId := 1, task := 1, cnt := 2 }
     StateInv s ∧ mzfLive s.enc = true ∧ ∃ t, exec .mzfTick s = .next t ∧ t.enc.period = 0) ∧
    (let s := after .caqInit State.reset
     StateInv s ∧ caqLive s.enc = true ∧ ∃ t, exec .caqTick s = .next t ∧ t.enc.period = 0) := by
  refine ⟨⟨inv_mzfAt _ _ _ (by decide) ⟨by decide, fun _ => rfl, fun h => absurd h (by decide)⟩, by decide, _, rfl, rfl⟩,
    ⟨.inr rfl, by decide, .inl rfl, List.mem_cons_self, fun _ h => absurd h (by decide), trivial, ?_, by decide, by decide, rfl⟩,
    by decide, _, rfl, rfl⟩
  exact fun _ => ⟨fun _ => ⟨rfl, rfl, .inl rfl⟩, fun _ => rfl, fun h => absurd h (by decide)⟩
/-- A half pulse of each encoder, live. -/
theorem witness_WrongTickKeepsTheHalfPulse :
    let half := regs fun e => { e with phalf := true }
    ((half (mzfAt 0)).enc.phalf = true ∧ (half (mzfAt 0)).enc.cstage = 4 ∧ (half (mzfAt 0)).enc.mstage ≠ 16) ∧
    ((half (caqAt 0)).enc.phalf = true ∧ (half (caqAt 0)).enc.mstage = 16 ∧ (half (caqAt 0)).enc.cstage ≠ 4) := by decide
/-- A body of the declared length, and an image that ends with its header. -/
theorem witness_MzfSessionSendsTheTransmission :
    ((onImage h3 0 State.reset).source = .image h3 0 true ∧ 128 ≤ h3.length ∧
      [0x00, 0xFF, 0x81] = (h3.drop 128).take ((h3.getD 18 0).toNat + 256 * (h3.getD 19 0).toNat)) ∧
    ((onImage (h3.take 128) 0 State.reset).source = .image (h3.take 128) 0 true ∧ 128 ≤ (h3.take 128).length ∧
      [] = ((h3.take 128).drop 128).take (((h3.take 128).getD 18 0).toNat + 256 * ((h3.take 128).getD 19 0).toNat)) := by
  set_option maxRecDepth 20000 in decide
theorem witness_MzfSessionTerminates :
    let s := State.reset.setEnc { Enc.reset with mstage := 0, blockId := 1, task := 1 }
    StateInv s ∧ mzfLive s.enc = true := ⟨inv_mzfAt _ _ _ (by decide) ⟨by decide, rfl⟩, by decide⟩
/-- Two states over one source with different registers. -/
theorem witness_WaveDependsOnlyOnTheSource :
    let s := State.reset
    let s' := (caqAt 1).setSource s.source
    s.source = s'.source ∧
    (∃ t t' u u' ps ps', exec .mzfInit s = .next t ∧ exec .mzfInit s' = .next t' ∧
      repeatExec .mzfTick 1 t = .next (ps, u) ∧ repeatExec .mzfTick 1 t' = .next (ps', u')) ∧
    (∃ t t' u u' ps ps', exec .caqInit s = .next t ∧ exec .caqInit s' = .next t' ∧
      repeatExec .caqTick 1 t = .next (ps, u) ∧ repeatExec .caqTick 1 t' = .next (ps', u')) :=
  ⟨rfl, ⟨_, _, _, _, _, _, rfl, rfl, rfl, rfl⟩, _, _, _, _, _, _, rfl, rfl, rfl, rfl⟩
/-- A header of 128 bytes, with a body and with none. -/
theorem witness_TransmissionLengths : (h3.take 128).length = 128 := by set_option maxRecDepth 20000 in decide
theorem witness_TimingConstantsAreLegal :
    Config.tMark ∈ [Config.tLU, Config.tLD, Config.tSU, Config.tSD, Config.tMark, Config.tSpace] :=
  .tail _ (.tail _ (.tail _ (.tail _ (.head _))))
/-- An emitting and a zero tick, and zero ticks of the invariant with the other encoder terminal. -/
theorem witness_HalfFlagIsClearBetweenPulses :
    (∃ t, exec .mzfTick (mzfAt 0) = .next t ∧ t.enc.phalf = true) ∧ (∃ t, exec .caqTick (caqAt 4) = .next t ∧ t.enc.period = 0) ∧
    (let s := State.reset.setEnc { Enc.reset with mstage := 5, blockId := 1, task := 1, cnt := 2 }
     StateInv s ∧ caqLive s.enc = false ∧ ∃ t, exec .mzfTick s = .next t ∧ t.enc.period = 0) ∧
    (let s := after .caqInit State.reset
     StateInv s ∧ mzfLive s.enc = false ∧ ∃ t, exec .caqTick s = .next t ∧ t.enc.period = 0) := by
  refine ⟨⟨_, rfl, rfl⟩, ⟨_, rfl, rfl⟩, ?_, ?_⟩
  · exact ⟨witness_LiveZeroTicksLeaveNoHalfPulse.1.1, by decide, _, rfl, rfl⟩
  · exact ⟨witness_LiveZeroTicksLeaveNoHalfPulse.2.1, by decide, _, rfl, rfl⟩

end Sys2Proof.Tests
end

section
/-! The pulse primitive (40_pulse.md): the timing constants are never 0, and the four rows of the opcode table that name
a pulse kind are one operation, `pulse` of that kind. -/

namespace Sys2Proof.Config

/-! ### The timing constants (00_scope.md R10) -/

theorem periodOfCode_toNat (c : Fin 65535) : (periodOfCode c).toNat = c.val + 1 := by
  have := c.isLt
  rw [periodOfCode, BitVec.toNat_ofNat]
  omega

theorem spaceOfCode_lt (c : Fin 65534) : spaceOfCode c < 65536 := by
  have := c.isLt
  unfold spaceOfCode
  omega

/-- The mark's half-period is below the space's, whatever the codes: `code % (space - 1)` is at most `space - 2`. -/
theorem markOfCode_lt {space : Nat} (hs : 2 ≤ space) (code : Nat) : markOfCode space code < space := by
  have := Nat.mod_lt code (show 0 < space - 1 by omega)
  unfold markOfCode
  omega

theorem tSpace_toNat : tSpace.toNat = spaceOfCode codeSpace :=
  Nat.mod_eq_of_lt (spaceOfCode_lt _)

theorem tMark_toNat : tMark.toNat = markOfCode (spaceOfCode codeSpace) codeMark :=
  Nat.mod_eq_of_lt ((markOfCode_lt (Nat.le_add_left _ _) _).trans (spaceOfCode_lt _))

theorem periodOfCode_ne_zero (c : Fin 65535) : periodOfCode c ≠ 0 :=
  BitVec.toNat_ne_iff_ne.1 (periodOfCode_toNat c ▸ Nat.succ_ne_zero _)

theorem tSpace_ne_zero : tSpace ≠ 0 :=
  BitVec.toNat_ne_iff_ne.1 (tSpace_toNat ▸ Nat.succ_ne_zero _)

theorem tMark_ne_zero : tMark ≠ 0 := by
  refine BitVec.toNat_ne_iff_ne.1 (tMark_toNat ▸ ?_)
  simp [markOfCode]

end Sys2Proof.Config

namespace Sys2Proof.Machine

/-! ### The durations of a pulse kind (40_pulse.md R120) -/

theorem up_ne_zero (k : PulseKind) : up k ≠ 0 := by
  cases k with
  | short | long => exact Config.periodOfCode_ne_zero _
  | space => exact Config.tSpace_ne_zero
  | mark => exact Config.tMark_ne_zero

theorem down_ne_zero (k : PulseKind) : down k ≠ 0 := by
  cases k with
  | short | long => exact Config.periodOfCode_ne_zero _
  | space => exact Config.tSpace_ne_zero
  | mark => exact Config.tMark_ne_zero

theorem pulse_period_ne_zero (k : PulseKind) (e : Enc) : (pulse k e).period ≠ 0 := by
  rw [pulse_period]
  split
  · exact down_ne_zero k
  · exact up_ne_zero k

/-- `Pulse` returns true exactly on the call that leaves no half pulse out (40_pulse.md R121). -/
theorem pulseCompletes_iff_phalf_clear (k : PulseKind) (e : Enc) :
    pulseCompletes e = true ↔ (pulse k e).phalf = false := by
  simp [pulseCompletes]

/-! ### The pulse-kind rows of the opcode table (30_encoding.md R96) -/

/-- The row of the opcode table that hands the kind to `Pulse`. -/
def pulseInstr : PulseKind → Instr
  | .short => .pulseShort
  | .long => .pulseLong
  | .space => .pulseSpace
  | .mark => .pulseMark

theorem exec_pulseInstr (k : PulseKind) (s : State) : exec (pulseInstr k) s = .next (s.mapEnc (pulse k)) := by
  cases k <;> rfl

theorem exec_pulseInstr_up (k : PulseKind) {s : State} (h : s.enc.phalf = false) :
    exec (pulseInstr k) s = .next (s.setEnc { s.enc with period := up k, phalf := true }) := by
  rw [exec_pulseInstr, State.mapEnc, pulse_up k h, State.setEnc]

theorem exec_pulseInstr_down (k : PulseKind) {s : State} (h : s.enc.phalf = true) :
    exec (pulseInstr k) s = .next (s.setEnc { s.enc with period := down k, phalf := false }) := by
  rw [exec_pulseInstr, State.mapEnc, pulse_down k h, State.setEnc]

/-- Settles O13: each of the four rows listed is `pulseInstr` of its kind, with that kind's two durations. -/
theorem pulseEmitsOneHalf : Obligations.PulseEmitsOneHalf := by
  intro i k u d hrow s
  obtain ⟨rfl, rfl, rfl⟩ : i = pulseInstr k ∧ u = up k ∧ d = down k := by
    simp only [List.mem_cons, Prod.mk.injEq, List.not_mem_nil, or_false] at hrow
    obtain ⟨rfl, rfl, rfl, rfl⟩ | ⟨rfl, rfl, rfl, rfl⟩ | ⟨rfl, rfl, rfl, rfl⟩ | ⟨rfl, rfl, rfl, rfl⟩ := hrow <;>
      exact ⟨rfl, rfl, rfl⟩
  exact ⟨exec_pulseInstr_up k, exec_pulseInstr_down k, pulseCompletes_iff_phalf_clear k s.enc, pulse_period_ne_zero k s.enc⟩

end Sys2Proof.Machine
end

section
/-! The population-count checksum (42_checksum.md): a running sum over the bytes, and how long a list must be for it to
wrap. -/

namespace Sys2Proof.Machine

theorem popcount8_le (b : Byte) : popcount8 b ≤ 8 := by
  have bit_le (i : Nat) : (b.getLsbD i).toNat ≤ 1 := Bool.toNat_le _
  have := bit_le 0; have := bit_le 1; have := bit_le 2; have := bit_le 3
  have := bit_le 4; have := bit_le 5; have := bit_le 6; have := bit_le 7
  unfold popcount8
  omega

theorem sum_popcount8_le (bs : List Byte) : (bs.map popcount8).sum ≤ 8 * bs.length := by
  induction bs with
  | nil => exact Nat.le_refl 0
  | cons b bs ih =>
    have := popcount8_le b
    rw [List.map_cons, List.sum_cons, List.length_cons]
    omega

@[simp] theorem checksum_nil : checksum [] = 0 := rfl

theorem checksum_toNat (bs : List Byte) : (checksum bs).toNat = (bs.map popcount8).sum % 65536 :=
  BitVec.toNat_ofNat _ 16

theorem checksum_append_singleton (bs : List Byte) (b : Byte) : checksum (bs ++ [b]) = ckAdd (checksum bs) b := by
  rw [checksum, List.map_append, List.sum_append, List.map_singleton, List.sum_singleton, BitVec.ofNat_add,
    ckAdd, checksum]

/-- 8191 bytes of 0xFF are the longest run the 16 bits hold; a header is far below it (42_checksum.md R152). -/
theorem checksum_toNat_of_short {bs : List Byte} (h : bs.length < 8192) :
    (checksum bs).toNat = (bs.map popcount8).sum := by
  have := sum_popcount8_le bs
  rw [checksum_toNat, Nat.mod_eq_of_lt]
  omega

theorem header_checksum_toNat {bs : List Byte} (h : bs.length = 128) :
    (checksum bs).toNat = (bs.map popcount8).sum ∧ (checksum bs).toNat ≤ 1024 := by
  have hsum := checksum_toNat_of_short (bs := bs) (by omega)
  have := sum_popcount8_le bs
  exact ⟨hsum, by omega⟩

/-- Settles O14: each clause is one of the facts above. -/
theorem checksumIsARunningSum : Obligations.ChecksumIsARunningSum :=
  ⟨checksum_nil, checksum_toNat, checksum_append_singleton, fun _ => header_checksum_toNat, popcount8_le⟩

end Sys2Proof.Machine
end

section
/-! What a tick puts in `PERIOD` (43_mzf.md R186, 44_caq.md R216). -/

namespace Sys2Proof.Machine

/-! ### What a tick can do -/

/-- MZF_TICK by the type of the row its stage selects: a pulse-counted stage, a byte-producing one, or the terminal tick. -/
theorem exec_mzfTick_cases {s t : State} (h : exec .mzfTick s = .next t) :
    (∃ k n next, mzfTable s.enc.mstage = .pulses k n next ∧ t = s.mapEnc (pulseStage k n next)) ∨
    (∃ src next, mzfTable s.enc.mstage = .bytes src next ∧ t = byteStage src next s) ∨
    (mzfTable s.enc.mstage = .terminal ∧ t = s.mapEnc terminalTick) := by
  have ht : execMzfTick s = .next t := h
  rw [execMzfTick_table] at ht
  cases hrow : mzfTable s.enc.mstage with
  | pulses k n next => rw [hrow] at ht; cases ht; exact .inl ⟨k, n, next, rfl, rfl⟩
  | bytes src next => rw [hrow] at ht; cases ht; exact .inr (.inl ⟨src, next, rfl, rfl⟩)
  | terminal => rw [hrow] at ht; cases ht; exact .inr (.inr ⟨rfl, rfl⟩)

/-- CAQ_TICK: the live tick of its stage below code 4, `DoneTick` from there on. -/
theorem exec_caqTick_cases {s t : State} (h : exec .caqTick s = .next t) :
    (s.enc.cstage.toNat < 4 ∧ t = caqStageTick s.enc.cstage s) ∨
    (4 ≤ s.enc.cstage.toNat ∧ t = s.mapEnc doneTick) := by
  have ht : execCaqTick s = .next t := h
  rw [execCaqTick_stage] at ht
  by_cases hlive : s.enc.cstage.toNat < 4
  · rw [if_pos hlive] at ht; cases ht; exact .inl ⟨hlive, rfl⟩
  · rw [if_neg hlive] at ht; cases ht; exact .inr ⟨Nat.le_of_not_lt hlive, rfl⟩

/-! ### The period of an emission is that of its pulse -/

/-- Whether the tick counts or enters the next stage, its half-period is that of the stage's pulse. -/
theorem pulseStage_period (k : PulseKind) (n : Nat) (next : BitVec 5) (e : Enc) :
    (pulseStage k n next e).period = (pulse k e).period := by
  rcases pulseStage_cases k n next e with ⟨hp, he⟩ | ⟨hp, _, he⟩ | ⟨hp, _, he⟩ <;> simp [he, hp]

/-- The leader is a long pulse and a data pulse has the kind of its bit: both are kinds of MZF bits. -/
theorem emitMzfBit_period (e : Enc) : ∃ bit, (emitMzfBit e).period = (pulse (mzfKind bit) e).period := by
  cases hl : e.lead with
  | false =>
    refine ⟨true, ?_⟩
    rcases emitMzfBit_cases e with ⟨_, hp, he⟩ | ⟨_, hp, he⟩ | ⟨hl', _⟩ | ⟨hl', _⟩ | ⟨hl', _⟩
    · simp [he, hp, mzfKind, up]
    · simp [he, hp, mzfKind, down]
    all_goals simp [hl] at hl'
  | true =>
    refine ⟨mzfDataBit e, ?_⟩
    rcases emitMzfBit_cases e with ⟨hl', _⟩ | ⟨hl', _⟩ | ⟨_, hp, he⟩ | ⟨_, hp, _, he⟩ | ⟨_, hp, _, he⟩
    · simp [hl] at hl'
    · simp [hl] at hl'
    all_goals simp [he, hp]

/-- Whether the cycle advances the frame or not, its half-period is that of the bit's pulse. -/
theorem caqEmit_period (st : BitVec 3) (e : Enc) :
    (caqEmit st e).period = (pulse (caqKind (caqBit st e)) e).period := by
  rcases caqEmit_cases st e with ⟨hp, he⟩ | ⟨hp, _, he⟩ | ⟨hp, _, he⟩ <;> simp [he, hp]

/-! ### MZF_TICK: 0 or a constant of the MZF encoder (43_mzf.md R186) -/

/-- What MZF_TICK may put in `PERIOD`. -/
def mzfPeriods : List Period := [0, Config.tLU, Config.tLD, Config.tSU, Config.tSD]

theorem zero_mem_mzfPeriods : 0 ∈ mzfPeriods := List.mem_cons_self

theorem pulse_mzfKind_period_mem (bit : Bool) (e : Enc) : (pulse (mzfKind bit) e).period ∈ mzfPeriods := by
  rw [pulse_period]
  cases bit <;> split <;> simp [mzfPeriods, mzfKind, up, down]

theorem emitMzfBit_period_mem (e : Enc) : (emitMzfBit e).period ∈ mzfPeriods := by
  obtain ⟨bit, hbit⟩ := emitMzfBit_period e
  exact hbit ▸ pulse_mzfKind_period_mem bit e

theorem byteStage_period_mem (src : ByteSource) (next : BitVec 5) (s : State) :
    (byteStage src next s).enc.period ∈ mzfPeriods := by
  rcases byteStage_cases src next s with ⟨_, hs⟩ | ⟨_, b, s', _, hs⟩ | ⟨_, s', _, hs⟩ <;> rw [hs]
  · exact emitMzfBit_period_mem _
  · exact emitMzfBit_period_mem _
  · exact zero_mem_mzfPeriods

/-- The pulse-counted stages send long and short pulses, the kinds of MZF bits (30_encoding.md R93). -/
theorem mzfTable_pulses_kind {c next : BitVec 5} {k : PulseKind} {n : Nat} (h : mzfTable c = .pulses k n next) :
    ∃ bit, k = mzfKind bit := by
  cases k with
  | short => exact ⟨false, rfl⟩
  | long => exact ⟨true, rfl⟩
  | space => unfold mzfTable at h; split at h <;> cases h
  | mark => unfold mzfTable at h; split at h <;> cases h

theorem mzfTick_period_mem {s t : State} (h : exec .mzfTick s = .next t) : t.enc.period ∈ mzfPeriods := by
  rcases exec_mzfTick_cases h with ⟨k, n, next, hrow, rfl⟩ | ⟨src, next, _, rfl⟩ | ⟨_, rfl⟩
  · obtain ⟨bit, rfl⟩ := mzfTable_pulses_kind hrow
    rw [mapEnc_enc, pulseStage_period]
    exact pulse_mzfKind_period_mem bit _
  · exact byteStage_period_mem src next s
  · exact zero_mem_mzfPeriods

/-! ### CAQ_TICK: 0 or a constant of the CAQ encoder (44_caq.md R216) -/

/-- What CAQ_TICK may put in `PERIOD`. -/
def caqPeriods : List Period := [0, Config.tMark, Config.tSpace]

theorem zero_mem_caqPeriods : 0 ∈ caqPeriods := List.mem_cons_self

theorem caqEmit_period_mem (st : BitVec 3) (e : Enc) : (caqEmit st e).period ∈ caqPeriods := by
  rw [caqEmit_period, pulse_period]
  cases caqBit st e <;> split <;> simp [caqPeriods, caqKind, up, down]

theorem caqExhausted_period (s : State) : (caqExhausted s).enc.period = 0 := by
  rw [caqExhausted, enterTerminal_caq_enc]

theorem caqTick_period_mem {s t : State} (h : exec .caqTick s = .next t) : t.enc.period ∈ caqPeriods := by
  obtain ⟨_, rfl⟩ | ⟨_, rfl⟩ := exec_caqTick_cases h
  · rcases caqStageTick_cases s.enc.cstage s with ⟨_, hs⟩ | ⟨_, b, _, hs⟩ | ⟨_, _, hs⟩ <;> rw [hs]
    · exact caqEmit_period_mem _ _
    · exact caqEmit_period_mem _ _
    · exact caqExhausted_period _ ▸ zero_mem_caqPeriods
  · exact zero_mem_caqPeriods

/-- Settles O46: no stage of an encoder calls `Pulse` with a kind of the other. -/
theorem ticksEmitOnlyTheirProtocolsConstants : Obligations.TicksEmitOnlyTheirProtocolsConstants :=
  fun _ _ => ⟨mzfTick_period_mem, caqTick_period_mem⟩

end Sys2Proof.Machine
end

section
/-! What each operation does to the two stage registers, and which steps leave a terminal state (43_mzf.md R190,
44_caq.md R218). -/

namespace Sys2Proof.Machine

/-! ### The INITs and ABANDON -/

theorem mzfInitFail_mstage (s : State) : (mzfInitFail s).enc.mstage = 16 := rfl
theorem mzfInitFail_cstage (s : State) : (mzfInitFail s).enc.cstage = s.enc.cstage := rfl
theorem mzfInitSucceed_mstage (s : State) : (mzfInitSucceed s).enc.mstage = 0 := rfl
theorem mzfInitSucceed_cstage (s : State) : (mzfInitSucceed s).enc.cstage = s.enc.cstage := rfl

theorem readHeader_cstage {n i : Nat} {s s' : State} {ok : Bool} (h : readHeader n i s = (ok, s')) :
    s'.enc.cstage = s.enc.cstage := by
  obtain ⟨henc, -⟩ := readHeader_frame n i s
  rw [h] at henc
  exact (congrArg Enc.cstage henc :)

/-- MZF_INIT ends live with the header read, or terminal with the access failed; CAQ is done either way. -/
theorem exec_mzfInit_stages {s t : State} (h : exec .mzfInit s = .next t) :
    (t.enc.mstage = 0 ∨ t.enc.mstage = 16) ∧ t.enc.cstage = 4 := by
  have ht : execMzfInit s = .next t := h
  obtain ⟨_, hs⟩ | ⟨_, ok, s', hread, hs⟩ := execMzfInit_cases s <;> rw [hs] at ht <;> cases ht
  · exact ⟨.inr (mzfInitFail_mstage _), mzfInitFail_cstage _⟩
  · have hdone : s'.enc.cstage = 4 := readHeader_cstage hread
    cases ok with
    | true => exact ⟨.inl (mzfInitSucceed_mstage s'), (mzfInitSucceed_cstage s').trans hdone⟩
    | false => exact ⟨.inr (mzfInitFail_mstage s'), (mzfInitFail_cstage s').trans hdone⟩

theorem exec_caqInit_stages {s t : State} (h : exec .caqInit s = .next t) : t.enc.mstage = 16 ∧ t.enc.cstage = 0 := by
  cases h; exact ⟨rfl, rfl⟩

theorem exec_abandon_stages {s t : State} (h : exec .abandon s = .next t) : t.enc.mstage = 16 ∧ t.enc.cstage = 4 := by
  cases h; exact ⟨rfl, rfl⟩

/-! ### The ticks -/

theorem byteStage_cstage (src : ByteSource) (next : BitVec 5) (s : State) :
    (byteStage src next s).enc.cstage = s.enc.cstage := by
  rcases byteStage_cases src next s with ⟨_, hs⟩ | ⟨_, b, s', hn, hs⟩ | ⟨_, s', hn, hs⟩ <;> rw [hs]
  · simp
  · simp [(nextByte_frame hn).1]
  · simp [(nextByte_frame hn).1]

theorem caqStageTick_mstage (st : BitVec 3) (s : State) : (caqStageTick st s).enc.mstage = s.enc.mstage := by
  rcases caqStageTick_cases st s with ⟨_, hs⟩ | ⟨_, b, _, hs⟩ | ⟨_, _, hs⟩ <;> rw [hs]
  · simp
  · simp
  · simp [caqExhausted, raise]

/-- MZF_TICK keeps the CAQ stage, and the MZF stage where its row is terminal. -/
theorem exec_mzfTick_stages {s t : State} (h : exec .mzfTick s = .next t) :
    (s.enc.mstage = 16 → t.enc.mstage = 16) ∧ t.enc.cstage = s.enc.cstage := by
  rcases exec_mzfTick_cases h with ⟨k, n, next, hrow, rfl⟩ | ⟨src, next, hrow, rfl⟩ | ⟨_, rfl⟩
  · exact ⟨fun hm => (by rw [hm] at hrow; cases hrow), pulseStage_cstage _ _ _ _⟩
  · exact ⟨fun hm => (by rw [hm] at hrow; cases hrow), byteStage_cstage _ _ _⟩
  · exact ⟨id, rfl⟩

/-- CAQ_TICK keeps the MZF stage, and the CAQ stage where it is not live. -/
theorem exec_caqTick_stages {s t : State} (h : exec .caqTick s = .next t) :
    t.enc.mstage = s.enc.mstage ∧ (s.enc.cstage = 4 → t.enc.cstage = 4) := by
  obtain ⟨hlive, rfl⟩ | ⟨_, rfl⟩ := exec_caqTick_cases h
  · exact ⟨caqStageTick_mstage _ _, fun hc => by rw [hc] at hlive; exact absurd hlive (by decide)⟩
  · exact ⟨rfl, id⟩

/-! ### The step -/

/-- Neither stage register leaves its terminal code. -/
def KeepsTerminalStages (s t : State) : Prop :=
  (s.enc.mstage = 16 → t.enc.mstage = 16) ∧ (s.enc.cstage = 4 → t.enc.cstage = 4)

theorem KeepsTerminalStages.refl (s : State) : KeepsTerminalStages s s := ⟨id, id⟩

/-- What the step from `s` to `t` does to the two stage registers, by what the host does. -/
inductive StageEffect (s t : State) : HostInput → Prop
  | mzfInit (hm : t.enc.mstage = 0 ∨ t.enc.mstage = 16) (hc : t.enc.cstage = 4) : StageEffect s t (.command 0b001)
  | caqInit (hm : t.enc.mstage = 16) (hc : t.enc.cstage = 0) : StageEffect s t (.command 0b011)
  | stop {i : HostInput} (hi : i ∈ [.command 0b101, .reset]) (hm : t.enc.mstage = 16) (hc : t.enc.cstage = 4) :
      StageEffect s t i
  | keep {i : HostInput} (hi : i ∉ [.command 0b001, .command 0b011, .command 0b101, .reset])
      (hk : KeepsTerminalStages s t) : StageEffect s t i

/-- The two INITs, ABANDON, and what the other codes decode to (30_encoding.md R91). -/
theorem decodeCommand_cases (op : CmdOp) :
    (op = 0b001 ∧ decodeCommand op = .mzfInit) ∨ (op = 0b011 ∧ decodeCommand op = .caqInit) ∨
    (op = 0b101 ∧ decodeCommand op = .abandon) ∨
    (.command op ∉ [.command 0b001, .command 0b011, .command 0b101, HostInput.reset] ∧
      decodeCommand op ∈ [.mzfTick, .caqTick, .nop, .reservedCmd 0, .reservedCmd 1]) := by
  revert op; decide

/-- The ticks, NOP and the reserved commands take neither encoder out of its terminal stage. -/
theorem exec_keepsTerminalStages {i : Instr} {s t : State}
    (hi : i ∈ [.mzfTick, .caqTick, .nop, .reservedCmd 0, .reservedCmd 1]) (h : exec i s = .next t) :
    KeepsTerminalStages s t := by
  simp only [List.mem_cons, List.not_mem_nil, or_false] at hi
  obtain rfl | rfl | rfl | rfl | rfl := hi
  · obtain ⟨hm, hc⟩ := exec_mzfTick_stages h
    exact ⟨hm, hc.trans⟩
  · obtain ⟨hm, hc⟩ := exec_caqTick_stages h
    exact ⟨hm.trans, hc⟩
  all_goals cases h; exact .refl s

theorem exec_command_stageEffect {op : CmdOp} {s t : State} (h : exec (decodeCommand op) s = .next t) :
    StageEffect s t (.command op) := by
  obtain ⟨rfl, hd⟩ | ⟨rfl, hd⟩ | ⟨rfl, hd⟩ | ⟨hop, hd⟩ := decodeCommand_cases op
  · rw [hd] at h
    obtain ⟨hm, hc⟩ := exec_mzfInit_stages h
    exact .mzfInit hm hc
  · rw [hd] at h
    obtain ⟨hm, hc⟩ := exec_caqInit_stages h
    exact .caqInit hm hc
  · rw [hd] at h
    obtain ⟨hm, hc⟩ := exec_abandon_stages h
    exact .stop (by decide) hm hc
  · exact .keep hop (exec_keepsTerminalStages hd h)

theorem applyHostInput_stageEffect {i : HostInput} (hi : ∀ op, i ≠ .command op) (s : State) :
    StageEffect s (applyHostInput i s) i := by
  cases i with
  | command op => exact absurd rfl (hi op)
  | reset => exact .stop (by decide) rfl rfl
  | setBaud v => exact .keep (by simp) (.refl s)
  | setSource src => exact .keep (by simp) (.refl s)

/-- A step is idle, or has the stage effect of what the host did. -/
theorem step_stageEffect {s t : State} (h : step s = .next t) :
    (s.inputs = [] ∧ t = s) ∨ ∃ i rest, s.inputs = i :: rest ∧ StageEffect (s.setInputs rest) t i := by
  obtain ⟨hin, hs⟩ | ⟨op, rest, hin, hs⟩ | ⟨i, rest, hin, hi, hs⟩ := step_cases s <;> rw [hs] at h
  · cases h; exact .inl ⟨hin, rfl⟩
  · exact .inr ⟨_, rest, hin, exec_command_stageEffect h⟩
  · cases h; exact .inr ⟨i, rest, hin, applyHostInput_stageEffect hi _⟩

/-! ### The three clauses -/

theorem step_leaves_terminal {s t : State} (h : step s = .next t) (hs : s.enc.mstage = 16) (ht : t.enc.mstage ≠ 16) :
    t.enc.mstage = 0 ∧ ∃ rest, s.inputs = .command 0b001 :: rest := by
  obtain ⟨_, rfl⟩ | ⟨i, rest, hin, heff⟩ := step_stageEffect h
  · exact absurd hs ht
  cases heff with
  | mzfInit hm _ => exact ⟨hm.resolve_right ht, rest, hin⟩
  | caqInit hm _ => exact absurd hm ht
  | stop _ hm _ => exact absurd hm ht
  | keep _ hk => exact absurd (hk.1 hs) ht

theorem step_leaves_done {s t : State} (h : step s = .next t) (hs : s.enc.cstage = 4) (ht : t.enc.cstage ≠ 4) :
    t.enc.cstage = 0 ∧ ∃ rest, s.inputs = .command 0b011 :: rest := by
  obtain ⟨_, rfl⟩ | ⟨i, rest, hin, heff⟩ := step_stageEffect h
  · exact absurd hs ht
  cases heff with
  | mzfInit _ hc => exact absurd hc ht
  | caqInit _ hc => exact ⟨hc, rest, hin⟩
  | stop _ _ hc => exact absurd hc ht
  | keep _ hk => exact absurd (hk.2 hs) ht

theorem step_ends_terminal {s t : State} (h : step s = .next t) {i : HostInput} {rest : List HostInput}
    (hin : s.inputs = i :: rest) :
    (i ∈ [.command 0b011, .command 0b101, .reset] → t.enc.mstage = 16) ∧
    (i ∈ [.command 0b001, .command 0b101, .reset] → t.enc.cstage = 4) := by
  obtain ⟨hnil, _⟩ | ⟨j, rest', hj, heff⟩ := step_stageEffect h
  · rw [hin] at hnil; cases hnil
  obtain rfl : i = j := (List.cons.inj (hin.symm.trans hj)).1
  cases heff with
  | mzfInit _ hc => exact ⟨fun hi => absurd hi (by decide), fun _ => hc⟩
  | caqInit hm _ => exact ⟨fun _ => hm, fun hi => absurd hi (by decide)⟩
  | stop _ hm hc => exact ⟨fun _ => hm, fun _ => hc⟩
  | keep hi _ =>
    refine ⟨fun hi' => absurd (List.mem_cons_of_mem _ hi') hi, fun hi' => absurd ?_ hi⟩
    rw [List.mem_cons] at hi' ⊢
    exact hi'.imp_right (List.mem_cons_of_mem _)

/-- Settles O45: each clause is read off the step's effect on the stage registers. -/
theorem onlyInitLeavesTheTerminalState : Obligations.OnlyInitLeavesTheTerminalState :=
  fun _ _ h => ⟨step_leaves_terminal h, step_leaves_done h, fun _ _ => step_ends_terminal h⟩

end Sys2Proof.Machine
end

section
/-! CAQ_INIT (44_caq.md R202): the save of the host's rate depends on `OVR`, the write of 600 and the start of the
session that follow it do not. -/

namespace Sys2Proof.Machine

/-! ### The save of the host's rate -/

theorem saveBaud_of_not_ovr {s : State} (h : s.enc.ovr = false) :
    saveBaud s = (s.addEvent (.baudRead s.baud)).setEnc { s.enc with savedBaud := s.baud, ovr := true } := by
  rw [saveBaud, h]
  rfl

theorem saveBaud_of_ovr {s : State} (h : s.enc.ovr = true) : saveBaud s = s := if_pos h

/-! ### CAQ_INIT after the save -/

/-- What follows the save does not look at `OVR`: one write of 600 to `BAUD`, and the registers of a new session. -/
theorem exec_caqInit (s : State) :
    exec .caqInit s = .next
      { saveBaud s with
        baud := 600
        trace := .baudWrite 600 :: (saveBaud s).trace
        enc := { (saveBaud s).enc with blockId := 2, task := 1, mstage := 16, cstage := 0, period := 0, phalf := false,
                                       loaded := false, bidx := 7, ccyc := false } } := rfl

/-- Settles O29: the two values of `OVR` are the two cases of the save. -/
theorem caqInitForcesTheBaudRate : Obligations.CaqInitForcesTheBaudRate := by
  refine fun s => ⟨fun hclear => ?_, fun hset => ?_⟩
  · rw [exec_caqInit, saveBaud_of_not_ovr hclear]
    rfl
  · rw [exec_caqInit, saveBaud_of_ovr hset]

end Sys2Proof.Machine
end

section
/-! The session commands (45_session.md R230, R231, R233): NOP and the reserved codes, ABANDON, and that every operation
completes. -/

namespace Sys2Proof.Machine

/-! ### NOP and the reserved commands -/

theorem exec_nop (s : State) : exec .nop s = .next s := rfl
theorem exec_reservedCmd (x : Nat) (s : State) : exec (.reservedCmd x) s = .next s := rfl

/-- Settles O16. -/
theorem nopAndReservedCommandsChangeNothing : Obligations.NopAndReservedCommandsChangeNothing :=
  fun s => ⟨exec_nop s, fun x => exec_reservedCmd x s⟩

/-! ### ABANDON -/

theorem baudRestore_of_ovr {s : State} (h : s.enc.ovr = true) :
    baudRestore s = (baudWrite s.enc.savedBaud s).setEnc { s.enc with ovr := false } := if_pos h

theorem baudRestore_of_not_ovr {s : State} (h : s.enc.ovr = false) : baudRestore s = s := by
  rw [baudRestore, h]
  rfl

/-- What follows the restore does not look at `OVR`: both encoders become terminal and the session is discarded. -/
theorem exec_abandon (s : State) :
    exec .abandon s = .next ((baudRestore s).setEnc { (baudRestore s).enc with
      mstage := 16, cstage := 4, loaded := false, phalf := false, period := 0, blockId := 0, task := 0 }) := rfl

/-- Settles O17: the two values of `OVR` are the two cases of the restore. -/
theorem abandonRestoresAndDiscards : Obligations.AbandonRestoresAndDiscards := by
  refine fun s => ⟨fun hset => ?_, fun hclear => ?_⟩
  · rw [exec_abandon, baudRestore_of_ovr hset]
    rfl
  · rw [exec_abandon, baudRestore_of_not_ovr hclear]
    rfl

/-! ### Every operation completes -/

theorem exec_mzfInit_completes (s : State) : ∃ t, exec .mzfInit s = .next t := by
  obtain ⟨_, hs⟩ | ⟨_, _, _, _, hs⟩ := execMzfInit_cases s <;> exact ⟨_, hs⟩

/-- The meanings that branch on the state answer a next state in every branch; the others answer one outright. -/
theorem exec_completes (i : Instr) (s : State) : ∃ t, exec i s = .next t := by
  cases i with
  | mzfInit => exact exec_mzfInit_completes s
  | mzfTick => exact ⟨_, execMzfTick_table s⟩
  | caqTick => exact ⟨_, execCaqTick_stage s⟩
  | _ => exact ⟨_, rfl⟩

theorem step_completes (s : State) : ∃ t, step s = .next t := by
  obtain ⟨_, hs⟩ | ⟨op, rest, _, hs⟩ | ⟨i, rest, _, _, hs⟩ := step_cases s
  · exact ⟨s, hs⟩
  · rw [hs]
    exact exec_completes _ _
  · exact ⟨_, hs⟩

/-- Settles O9. -/
theorem everyOperationCompletes : Obligations.EveryOperationCompletes := ⟨exec_completes, step_completes⟩

end Sys2Proof.Machine
end

section
/-! The hand-off registers `BLOCK_ID` and `TASK`: what each operation does to them (45_session.md R235). -/

namespace Sys2Proof.Machine

/-! ### MZF_INIT -/

/-- What MZF_INIT, ending in `t`, leaves in the hand-off registers: PLAY with the first stage entered, or EOF with
StorageAccessFailure the newest event. -/
def MzfInitHandOff (t : State) : Prop :=
  t.enc.blockId = 1 ∧
    ((t.trace.head? ≠ some (.raised .storageAccessFailure) ∧ t.enc.mstage = 0 ∧ t.enc.task = 1) ∨
     (t.trace.head? = some (.raised .storageAccessFailure) ∧ t.enc.mstage = 16 ∧ t.enc.task = 2))

theorem mzfInitFail_handOff {s : State} (hb : s.enc.blockId = 1) : MzfInitHandOff (mzfInitFail s) :=
  ⟨hb, .inr ⟨rfl, mzfInitFail_mstage s, rfl⟩⟩

theorem mzfInitSucceed_handOff {s : State} (hb : s.enc.blockId = 1) (ht : s.enc.task = 1)
    (hhead : s.trace.head? ≠ some (.raised .storageAccessFailure)) : MzfInitHandOff (mzfInitSucceed s) :=
  ⟨hb, .inl ⟨hhead, mzfInitSucceed_mstage s, ht⟩⟩

/-- The READs of the header raise nothing: a newest event that is no raised condition stays so. -/
theorem readHeader_head_not_raised {c : Condition} (n : Nat) : ∀ (i : Nat) (s : State),
    s.trace.head? ≠ some (.raised c) → (readHeader n i s).2.trace.head? ≠ some (.raised c) := by
  induction n with
  | zero => exact fun _ _ h => h
  | succ n ih =>
    intro i s _
    have hread : (srcRead s).2.trace.head? ≠ some (.raised c) := by simp
    match hr : srcRead s with
    | (none, s') =>
      rw [hr] at hread
      simpa only [readHeader, hr] using hread
    | (some b, s') =>
      rw [hr] at hread
      simpa only [readHeader, hr] using ih (i + 1) (memWrite (Fin.ofNat Config.nHdr i) b s') hread

theorem readHeader_handOff {n i : Nat} {s s' : State} {ok : Bool} (h : readHeader n i s = (ok, s')) :
    s'.enc.blockId = s.enc.blockId ∧ s'.enc.task = s.enc.task := by
  obtain ⟨henc, -⟩ := readHeader_frame n i s
  rw [h] at henc
  exact ⟨(congrArg Enc.blockId henc :), (congrArg Enc.task henc :)⟩

/-- The header is read with `BLOCK_ID` MZF and `TASK` PLAY already written, and with the SEEK the newest event. -/
theorem exec_mzfInit_handOff {s t : State} (h : exec .mzfInit s = .next t) : MzfInitHandOff t := by
  have ht : execMzfInit s = .next t := h
  obtain ⟨_, hs⟩ | ⟨_, ok, s', hread, hs⟩ := execMzfInit_cases s <;> rw [hs] at ht <;> cases ht
  · exact mzfInitFail_handOff rfl
  · obtain ⟨hblock, htask⟩ := readHeader_handOff hread
    cases ok with
    | false => exact mzfInitFail_handOff hblock
    | true =>
      have hhead := readHeader_head_not_raised (c := .storageAccessFailure) Config.nHdr 0
        (srcSeek Config.mzfHdrPos (s.mapEnc mzfInitRegisters)).2 (by simp)
      rw [hread] at hhead
      exact mzfInitSucceed_handOff hblock htask hhead

/-! ### CAQ_INIT and ABANDON -/

theorem exec_caqInit_handOff {s t : State} (h : exec .caqInit s = .next t) : t.enc.blockId = 2 ∧ t.enc.task = 1 := by
  rw [exec_caqInit] at h; cases h; exact ⟨rfl, rfl⟩

theorem exec_abandon_handOff {s t : State} (h : exec .abandon s = .next t) : t.enc.blockId = 0 ∧ t.enc.task = 0 := by
  rw [exec_abandon] at h; cases h; exact ⟨rfl, rfl⟩

/-! ### MZF_TICK -/

/-- What an MZF tick from `e` to `e'` does to the hand-off registers: EOF is written exactly when the tick ends above
FCS1, the last stage that transmits. -/
def MzfHandOff (e e' : Enc) : Prop :=
  e'.blockId = e.blockId ∧ e'.task = if 13 < e'.mstage.toNat then 2 else e.task

theorem MzfHandOff.of_transmitting {e e' : Enc} (hm : e'.mstage.toNat ≤ 13) (hb : e'.blockId = e.blockId)
    (ht : e'.task = e.task) : MzfHandOff e e' :=
  ⟨hb, ht.trans (if_neg (Nat.not_lt.2 hm)).symm⟩

theorem MzfHandOff.of_terminal {e e' : Enc} (hm : 13 < e'.mstage.toNat) (hb : e'.blockId = e.blockId)
    (ht : e'.task = 2) : MzfHandOff e e' :=
  ⟨hb, ht.trans (if_pos hm).symm⟩

/-- A stage enters another that transmits, or TERMINAL, and `GoTo` writes EOF in the second case alone. -/
theorem goTo_handOff {next : BitVec 5} (hnext : next.toNat ≤ 13 ∨ next = MzfStage.terminal) (e : Enc) :
    MzfHandOff e (goTo next e) := by
  obtain hlive | rfl := hnext
  · have hne : next ≠ MzfStage.terminal := fun hterm => absurd (hterm ▸ hlive) (by decide)
    exact .of_transmitting hlive rfl (if_neg hne)
  · exact .of_terminal (show 13 < MzfStage.terminal.toNat by decide) rfl rfl

theorem pulseStage_handOff {k : PulseKind} {n : Nat} {next : BitVec 5} {e : Enc}
    (hrow : mzfTable e.mstage = .pulses k n next) : MzfHandOff e (pulseStage k n next e) := by
  obtain ⟨_, _, hsucc, hle⟩ := mzfTable_pulses hrow
  have hstage : e.mstage.toNat ≤ 13 := by omega
  rcases pulseStage_cases k n next e with ⟨_, he⟩ | ⟨_, _, he⟩ | ⟨_, _, he⟩ <;> rw [he]
  · exact .of_transmitting hstage rfl rfl
  · exact .of_transmitting hstage rfl rfl
  · exact goTo_handOff (.inl (by omega)) _

theorem byteStage_handOff {src : ByteSource} {next : BitVec 5} {s : State}
    (hrow : mzfTable s.enc.mstage = .bytes src next) : MzfHandOff s.enc (byteStage src next s).enc := by
  obtain ⟨hstage, hnext⟩ := mzfTable_bytes hrow
  rcases byteStage_cases src next s with ⟨_, hs⟩ | ⟨_, b, s', hn, hs⟩ | ⟨_, s', hn, hs⟩ <;> rw [hs, mapEnc_enc]
  · exact .of_transmitting (by simpa using hstage) (by simp) (by simp)
  · rw [(nextByte_frame hn).1]
    exact .of_transmitting (by simpa using hstage) (by simp) (by simp)
  · rw [(nextByte_frame hn).1]
    exact goTo_handOff (hnext.imp And.right And.right) _

theorem exec_mzfTick_handOff {s t : State} (h : exec .mzfTick s = .next t) : MzfHandOff s.enc t.enc := by
  rcases exec_mzfTick_cases h with ⟨k, n, next, hrow, rfl⟩ | ⟨src, next, hrow, rfl⟩ | ⟨hrow, rfl⟩
  · exact pulseStage_handOff hrow
  · exact byteStage_handOff hrow
  · exact .of_terminal (mzfTable_terminal hrow) rfl rfl

/-! ### CAQ_TICK -/

/-- The advance from any stage enters DATA_BITS or a stop bit, or stays: never DONE. -/
theorem caqAdvance_cstage_lt (st : BitVec 3) {e : Enc} (h : e.cstage.toNat < 4) :
    (caqAdvance st e).cstage.toNat < 4 := by
  unfold caqAdvance
  split
  · exact (by decide : CaqStage.dataBits.toNat < 4)
  split
  · split
    · exact (by decide : CaqStage.stopBit1.toNat < 4)
    · exact h
  split
  · exact (by decide : CaqStage.stopBit2.toNat < 4)
  · exact h

theorem caqEmit_cstage_lt (st : BitVec 3) {e : Enc} (h : e.cstage.toNat < 4) : (caqEmit st e).cstage.toNat < 4 := by
  rcases caqEmit_cases st e with ⟨_, he⟩ | ⟨_, _, he⟩ | ⟨_, _, he⟩ <;> rw [he]
  · exact h
  · exact h
  · exact caqAdvance_cstage_lt st h

/-- What a CAQ tick from `e` to `e'` does to the hand-off registers: EOF is written exactly when the tick ends above
STOP_BIT_2, the last stage that transmits. -/
def CaqHandOff (e e' : Enc) : Prop :=
  e'.blockId = e.blockId ∧ e'.task = if 3 < e'.cstage.toNat then 2 else e.task

/-- A half of a bit reports nothing to the host. -/
theorem caqEmit_handOff (st : BitVec 3) {e : Enc} (h : e.cstage.toNat < 4) : CaqHandOff e (caqEmit st e) := by
  have hlive := caqEmit_cstage_lt st h
  exact ⟨caqEmit_blockId st e, (caqEmit_task st e).trans (if_neg (by omega)).symm⟩

theorem caqStageTick_handOff {st : BitVec 3} {s : State} (h : s.enc.cstage.toNat < 4) :
    CaqHandOff s.enc (caqStageTick st s).enc := by
  rcases caqStageTick_cases st s with ⟨_, hs⟩ | ⟨_, b, _, hs⟩ | ⟨_, _, hs⟩ <;> rw [hs]
  · exact caqEmit_handOff st h
  · exact caqEmit_handOff CaqStage.startBit (e := loadCaqByte b s.enc) (show CaqStage.startBit.toNat < 4 by decide)
  · rw [caqExhausted, enterTerminal_caq_enc]
    exact ⟨rfl, rfl⟩

theorem exec_caqTick_handOff {s t : State} (h : exec .caqTick s = .next t) : CaqHandOff s.enc t.enc := by
  obtain ⟨hlive, rfl⟩ | ⟨hdone, rfl⟩ := exec_caqTick_cases h
  · exact caqStageTick_handOff hlive
  · exact ⟨rfl, (if_pos hdone).symm⟩

/-! ### The table -/

theorem exec_idle_handOff {x : Nat} {j : Instr} {s t : State} (hj : j ∈ [.nop, .reservedCmd x])
    (h : exec j s = .next t) : t.enc.blockId = s.enc.blockId ∧ t.enc.task = s.enc.task := by
  simp only [List.mem_cons, List.not_mem_nil, or_false] at hj
  obtain rfl | rfl := hj
  · rw [exec_nop] at h; cases h; exact ⟨rfl, rfl⟩
  · rw [exec_reservedCmd] at h; cases h; exact ⟨rfl, rfl⟩

/-- Settles O47: one line of the table of R235 for each operation. -/
theorem handOffRegistersChangeAsListed : Obligations.HandOffRegistersChangeAsListed :=
  ⟨fun _ => ⟨rfl, rfl⟩, fun _ _ => ⟨exec_mzfInit_handOff, exec_caqInit_handOff, exec_abandon_handOff,
    exec_mzfTick_handOff, exec_caqTick_handOff, fun _ _ => exec_idle_handOff⟩⟩

end Sys2Proof.Machine
end

section
/-! Reset as a step (70_reset_and_hazards.md R280, R281): an asserted `rst` is taken off the list of inputs and applied,
with no request to the byte source. -/

namespace Sys2Proof.Machine

theorem step_reset {s : State} {rest : List HostInput} (h : s.inputs = .reset :: rest) :
    step s = .next (applyReset (s.setInputs rest)) := by
  obtain ⟨hnil, _⟩ | ⟨op, rest', hcmd, _⟩ | ⟨i, rest', hin, _, hs⟩ := step_cases s
  · exact absurd (h.symm.trans hnil) (List.cons_ne_nil _ _)
  · cases h.symm.trans hcmd
  · cases h.symm.trans hin
    exact hs

/-- Settles O10: the step is `applyReset`, whose registers are `Enc.reset` whatever they were, as those of `State.reset`
are. -/
theorem resetPutsEveryRegisterAtItsResetValue : Obligations.ResetPutsEveryRegisterAtItsResetValue := by
  refine ⟨fun s rest h => ⟨applyReset (s.setInputs rest), step_reset h, ?baud, ?source, ?trace, ?inputs, ?enc⟩, rfl⟩
  case baud => rw [applyReset_baud, setInputs_baud]
  case source => rw [applyReset_source, setInputs_source]
  case trace => rw [applyReset_trace, setInputs_trace]
  case inputs => rw [applyReset_inputs, setInputs_inputs]
  case enc => exact applyReset_enc _

end Sys2Proof.Machine
end

section
/-! The opcode table (30_encoding.md): its rows are disjoint, cover every code of their format, and are undone by the
encoder. Each fact about the table is checked row by row, once; the statements about `decode` follow. -/

namespace Sys2Proof

/-! ### The rows -/

/-- What a row builds from a code it matches is well-formed and has that code. -/
def Row.Sound (r : Row) : Prop :=
  ∀ w < 2 ^ r.format.width, r.hits w = true →
    (r.build (r.restOf w)).wf = true ∧ encode (r.build (r.restOf w)) = (r.format, w)

theorem rowsOf_sound (f : Format) : ∀ r ∈ rowsOf f, r.format = f ∧ r.Sound := by
  unfold Row.Sound
  cases f <;> decide

theorem rowsOf_cover (f : Format) : ∀ w < 2 ^ f.width, ((rowsOf f).find? (·.hits w)).isSome = true := by
  cases f <;> decide

/-- Settles O4. -/
theorem opcodeRowsDisjoint : Obligations.OpcodeRowsDisjoint := by
  intro f
  cases f <;> decide

/-! ### The decoder -/

/-- A word decodes to what a row of its format, matching it, builds. -/
theorem decode_eq_ok_iff {f : Format} {w : Nat} {i : Instr} :
    decode f w = .ok i ↔
      w < 2 ^ f.width ∧ ∃ r, (rowsOf f).find? (·.hits w) = some r ∧ r.build (r.restOf w) = i := by
  unfold decode
  by_cases hw : w < 2 ^ f.width
  · cases (rowsOf f).find? (·.hits w) <;> simp [hw]
  · simp [hw]

/-- Settles O2: the row that matched is sound. -/
theorem decodedWordsEncodeBack : Obligations.DecodedWordsEncodeBack := by
  intro f w i h
  obtain ⟨hw, r, hr, rfl⟩ := decode_eq_ok_iff.1 h
  obtain ⟨rfl, hsound⟩ := rowsOf_sound f r (List.mem_of_find?_eq_some hr)
  exact hsound w hw (by simpa using List.find?_some hr)

theorem decode_of_wide {f : Format} {w : Nat} (h : 2 ^ f.width ≤ w) : decode f w = .error (.tooWide f w) :=
  if_neg (Nat.not_lt.2 h)

/-- Settles O3: the rows of a format cover its codes. -/
theorem everyCodeOfAFormatDecodes : Obligations.EveryCodeOfAFormatDecodes := by
  refine fun f w => ⟨fun hw => ?_, decode_of_wide⟩
  obtain ⟨r, hr⟩ := Option.isSome_iff_exists.1 (rowsOf_cover f w hw)
  exact ⟨_, decode_eq_ok_iff.2 ⟨hw, r, hr, rfl⟩⟩

/-- Settles O1: a row without don't-care bits decodes its one code; the operand of the others is a small number. -/
theorem decodeEncodeAgree : Obligations.DecodeEncodeAgree := by
  intro i h
  have hfit := Laws.dontCare_lt h
  cases i with
  | reservedCmd x | mzfReserved1001x x | mzfReserved101xx x | mzfReserved11xxx x | caqReserved11x x =>
    simp only [Instr.dontCare, Nat.reducePow] at hfit
    interval_cases x <;> rfl
  | _ => rfl

/-- Settles O5. -/
theorem codesDecodeToTheirInstructions : Obligations.CodesDecodeToTheirInstructions :=
  ⟨rfl, rfl, rfl, rfl, rfl, rfl, rfl, rfl, rfl⟩

end Sys2Proof
end

section
/-! Dispatch: what a step, a tick and a stage row run (30_encoding.md R92, R112; 43_mzf.md R161; 44_caq.md R205). -/

namespace Sys2Proof.Machine

/-! ### The step -/

theorem step_command {s : State} {op : CmdOp} {rest : List HostInput} (h : s.inputs = .command op :: rest) :
    step s = exec (decodeCommand op) (s.setInputs rest) := by
  simp only [step, nextInput, h]

theorem decodeCommand_of_decode {op : CmdOp} {i : Instr} (h : decode .cmd op.toNat = .ok i) : decodeCommand op = i := by
  rw [decodeCommand, h]; rfl

/-- Settles O6. -/
theorem stepRunsTheDecodedCommand : Obligations.StepRunsTheDecodedCommand := by
  intro s op rest i hin hdec
  rw [step_command hin, decodeCommand_of_decode hdec]

/-- Settles O7: the idle step and the two host writes, each by its branch of the step. -/
theorem stepOfAnIdlePortOrAHostWrite : Obligations.StepOfAnIdlePortOrAHostWrite := by
  refine fun s rest => ⟨fun h => ?idle, fun v h => ?setBaud, fun src h => ?setSource⟩
  all_goals simp only [step, nextInput, h]
  case setBaud => rfl
  case setSource => rfl

/-! ### The MZF stage rows -/

/-- The operation of a row of `MZF_TABLE`. -/
def runMzfRow : StageRow → State → State
  | .pulses k n next, s => s.mapEnc (pulseStage k n next)
  | .bytes src next, s => byteStage src next s
  | .terminal, s => s.mapEnc terminalTick

theorem exec_mzfTick (s : State) : exec .mzfTick s = .next (runMzfRow (mzfTable s.enc.mstage) s) := by
  rw [show exec .mzfTick s = execMzfTick s from rfl, execMzfTick_table]
  cases mzfTable s.enc.mstage <;> rfl

/-- The instruction an MZF stage code decodes to runs the row of `MZF_TABLE` with that code. -/
theorem exec_of_decode_mzfStage {c : BitVec 5} {i : Instr} (h : decode .mzfStage c.toNat = .ok i) (s : State) :
    exec i s = .next (runMzfRow (mzfTable c) s) := by
  have hc : c = BitVec.ofNat 5 c.toNat := by simp
  have hlt : c.toNat < 32 := c.isLt
  rw [hc]
  generalize c.toNat = m at h hlt
  interval_cases m <;> cases h <;> rfl

/-- `j` runs the MZF stage with code `c`: as the row itself, or as MZF_TICK with the code in `MSTAGE`. -/
theorem exec_mzfStage {c : BitVec 5} {i j : Instr} {s : State} (hi : decode .mzfStage c.toNat = .ok i)
    (hj : j = i ∨ (j = .mzfTick ∧ s.enc.mstage = c)) : exec j s = .next (runMzfRow (mzfTable c) s) := by
  obtain rfl | ⟨rfl, rfl⟩ := hj
  · exact exec_of_decode_mzfStage hi s
  · exact exec_mzfTick s

/-! ### The CAQ stage rows -/

/-- The operation of the CAQ stage with code `c`. -/
def runCaqStage (c : BitVec 3) (s : State) : State :=
  if c.toNat < 4 then caqStageTick c s else s.mapEnc doneTick

theorem exec_caqTick (s : State) : exec .caqTick s = .next (runCaqStage s.enc.cstage s) := execCaqTick_stage s

/-- The instruction a CAQ stage code decodes to runs the stage with that code. -/
theorem exec_of_decode_caqStage {c : BitVec 3} {i : Instr} (h : decode .caqStage c.toNat = .ok i) (s : State) :
    exec i s = .next (runCaqStage c s) := by
  have hc : c = BitVec.ofNat 3 c.toNat := by simp
  have hlt : c.toNat < 8 := c.isLt
  rw [hc]
  generalize c.toNat = m at h hlt
  interval_cases m <;> cases h <;> rfl

/-- `j` runs the CAQ stage with code `c`: as the row itself, or as CAQ_TICK with the code in `CSTAGE`. -/
theorem exec_caqStage {c : BitVec 3} {i j : Instr} {s : State} (hi : decode .caqStage c.toNat = .ok i)
    (hj : j = i ∨ (j = .caqTick ∧ s.enc.cstage = c)) : exec j s = .next (runCaqStage c s) := by
  obtain rfl | ⟨rfl, rfl⟩ := hj
  · exact exec_of_decode_caqStage hi s
  · exact exec_caqTick s

/-- Settles O8: a tick and the row its stage register selects are the same operation. -/
theorem ticksRunTheSelectedStage : Obligations.TicksRunTheSelectedStage :=
  fun s _ => ⟨fun h => (exec_mzfTick s).trans (exec_of_decode_mzfStage h s).symm,
    fun h => (exec_caqTick s).trans (exec_of_decode_caqStage h s).symm⟩

/-! ### The terminal rows -/

/-- The operation of every terminal row and code. -/
theorem runMzfRow_of_terminal {c : BitVec 5} (h : 14 ≤ c.toNat) (s : State) :
    runMzfRow (mzfTable c) s = s.setEnc { s.enc with period := 0, task := 2 } := by
  cases hrow : mzfTable c with
  | pulses k n next => have := mzfTable_pulses hrow; omega
  | bytes src next => have := mzfTable_bytes hrow; omega
  | terminal => rfl

theorem runCaqStage_of_done {c : BitVec 3} (h : 4 ≤ c.toNat) (s : State) :
    runCaqStage c s = s.setEnc { s.enc with period := 0, task := 2 } := if_neg (Nat.not_lt.2 h)

/-- Settles O28: a row that is terminal says so itself; a tick does by the code in its stage register. -/
theorem terminalTicksOnlyReportEndOfFile : Obligations.TerminalTicksOnlyReportEndOfFile := by
  rintro s j (hrow | ⟨x, hrow⟩ | ⟨rfl, hcode⟩ | ⟨rfl, hcode⟩)
  · simp only [List.mem_cons, List.not_mem_nil, or_false] at hrow
    obtain rfl | rfl | rfl | rfl | rfl | rfl := hrow <;> rfl
  · simp only [List.mem_cons, List.not_mem_nil, or_false] at hrow
    obtain rfl | rfl | rfl | rfl := hrow <;> rfl
  · rw [exec_mzfTick, runMzfRow_of_terminal hcode]
  · rw [exec_caqTick, runCaqStage_of_done hcode]

end Sys2Proof.Machine
end

section
/-! The timing constants again (00_scope.md R10): their bounds, and that the codes behind them reach every legal value.
The header space: a byte written is read back (20_memory.md R68). -/

namespace Sys2Proof.Config

theorem tMark_lt_tSpace : tMark.toNat < tSpace.toNat := by
  rw [tMark_toNat, tSpace_toNat]
  exact markOfCode_lt (Nat.le_add_left _ _) _

/-- Settles O11: a 16-bit constant is legal when it is not 0. -/
theorem timingConstantsAreLegal : Obligations.TimingConstantsAreLegal := by
  refine ⟨fun p hp => ?_, tMark_lt_tSpace⟩
  have hne : p ≠ 0 := by
    simp only [List.mem_cons, List.not_mem_nil, or_false] at hp
    obtain rfl | rfl | rfl | rfl | rfl | rfl := hp
    · exact periodOfCode_ne_zero _
    · exact periodOfCode_ne_zero _
    · exact periodOfCode_ne_zero _
    · exact periodOfCode_ne_zero _
    · exact tMark_ne_zero
    · exact tSpace_ne_zero
  have hlt := p.isLt
  exact ⟨Nat.pos_of_ne_zero fun h0 => hne (BitVec.eq_of_toNat_eq h0), by omega⟩

theorem periodOfCode_surjective {p : Period} (h : p ≠ 0) : ∃ c, periodOfCode c = p := by
  have hpos : p.toNat ≠ 0 := fun h0 => h (BitVec.eq_of_toNat_eq h0)
  have hlt := p.isLt
  refine ⟨⟨p.toNat - 1, by omega⟩, BitVec.eq_of_toNat_eq ?_⟩
  rw [periodOfCode_toNat]
  exact Nat.sub_add_cancel (Nat.pos_of_ne_zero hpos)

theorem spaceOfCode_markOfCode_surjective {mark space : Nat} (hmark : 1 ≤ mark) (hlt : mark < space)
    (hspace : space ≤ 65535) : ∃ c m, spaceOfCode c = space ∧ markOfCode space m = mark := by
  refine ⟨⟨space - 2, by omega⟩, mark - 1, ?_, ?_⟩
  · simp only [spaceOfCode]; omega
  · rw [markOfCode, Nat.mod_eq_of_lt (by omega)]; omega

/-- Settles O12. -/
theorem everyLegalTimingHasACode : Obligations.EveryLegalTimingHasACode :=
  ⟨fun _ => periodOfCode_surjective, fun _ _ => spaceOfCode_markOfCode_surjective⟩

end Sys2Proof.Config

namespace Sys2Proof.Machine

theorem memRead_memWrite (s : State) (i j : Fin Config.nHdr) (b : Byte) :
    memRead (memWrite i b s) j = if j = i then b else memRead s j := by
  simp only [memRead, memWrite_enc, memWrite_freeCtr, lookup_insert, Fin.val_inj]
  split <;> rfl

/-- Settles O15. -/
theorem headerReadAfterWrite : Obligations.HeaderReadAfterWrite := memRead_memWrite

theorem headerBytes_congr {s t : State} (h : ∀ i, memRead t i = memRead s i) : headerBytes t = headerBytes s := by
  simp only [headerBytes, h]

end Sys2Proof.Machine
end

section
/-! One tick of an MZF stage (43_mzf.md R163, R164; 41_byte_cursor.md R131 to R134), case by case. -/

namespace Sys2Proof.Machine

/-! ### Entering a stage and the pulse-counted stages -/

theorem goTo_of_ne_terminal {n : BitVec 5} (h : n ≠ 16) (e : Enc) :
    goTo n e = { e with mstage := n, cnt := 0, fcs := if n = 12 then 0 else e.fcs } := by
  have hterm : n ≠ MzfStage.terminal := h
  simp only [goTo, if_neg hterm]
  rfl

theorem pulseStage_up (k : PulseKind) (n : Nat) (next : BitVec 5) {e : Enc} (h : e.phalf = false) :
    pulseStage k n next e = { e with period := up k, phalf := true } := by
  rcases pulseStage_cases k n next e with ⟨_, he⟩ | ⟨hp, _⟩ | ⟨hp, _⟩
  · exact he
  · simp [h] at hp
  · simp [h] at hp

theorem pulseStage_count (k : PulseKind) {n : Nat} (next : BitVec 5) {e : Enc} (h : e.phalf = true)
    (hn : e.cnt + 1 ≠ BitVec.ofNat 16 n) :
    pulseStage k n next e = { e with period := down k, phalf := false, cnt := e.cnt + 1 } := by
  rcases pulseStage_cases k n next e with ⟨hp, _⟩ | ⟨_, _, he⟩ | ⟨_, hlast, _⟩
  · simp [h] at hp
  · exact he
  · exact absurd hlast hn

theorem pulseStage_last (k : PulseKind) {n : Nat} {next : BitVec 5} {e : Enc} (h : e.phalf = true)
    (hn : e.cnt + 1 = BitVec.ofNat 16 n) (hnext : next ≠ 16) :
    pulseStage k n next e = { e with
      period := down k, phalf := false, cnt := 0, mstage := next, fcs := if next = 12 then 0 else e.fcs } := by
  rcases pulseStage_cases k n next e with ⟨hp, _⟩ | ⟨_, hcount, _⟩ | ⟨_, _, he⟩
  · simp [h] at hp
  · exact absurd hn hcount
  · rw [he, goTo_of_ne_terminal hnext]

/-- Settles O21: each line of the list is a pulse-counted row of `MZF_TABLE` with the two durations of its kind. -/
theorem pulseStagesEmitAndCount : Obligations.PulseStagesEmitAndCount := by
  intro i code u d n next hrow s j hj
  obtain ⟨hdec, k, htable, rfl, rfl, hnext⟩ : decode .mzfStage code.toNat = .ok i ∧
      ∃ k, mzfTable code = .pulses k n next ∧ u = up k ∧ d = down k ∧ next ≠ 16 := by
    simp only [List.mem_cons, Prod.mk.injEq, List.not_mem_nil, or_false] at hrow
    obtain ⟨rfl, rfl, rfl, rfl, rfl, rfl⟩ | ⟨rfl, rfl, rfl, rfl, rfl, rfl⟩ | ⟨rfl, rfl, rfl, rfl, rfl, rfl⟩ |
      ⟨rfl, rfl, rfl, rfl, rfl, rfl⟩ | ⟨rfl, rfl, rfl, rfl, rfl, rfl⟩ | ⟨rfl, rfl, rfl, rfl, rfl, rfl⟩ |
      ⟨rfl, rfl, rfl, rfl, rfl, rfl⟩ | ⟨rfl, rfl, rfl, rfl, rfl, rfl⟩ := hrow <;>
      exact ⟨rfl, _, rfl, rfl, rfl, by decide⟩
  rw [exec_mzfStage hdec hj, htable, runMzfRow, State.mapEnc]
  refine ⟨fun hp => ?_, fun hp hn => ?_, fun hp hn => ?_⟩
  · rw [pulseStage_up _ _ _ hp]; rfl
  · rw [pulseStage_count _ _ hp hn]; rfl
  · rw [pulseStage_last _ hp hn hnext]; rfl

/-! ### The next byte of a source -/

theorem highByte_toNat (x : Word) : (highByte x).toNat = x.toNat / 256 := by
  have := x.isLt
  rw [highByte, BitVec.extractLsb'_toNat, Nat.shiftRight_eq_div_pow]
  omega

theorem lowByte_toNat (x : Word) : (lowByte x).toNat = x.toNat % 256 := by
  rw [lowByte, BitVec.extractLsb'_toNat, Nat.shiftRight_eq_div_pow, pow_zero, Nat.div_one]

/-- A checksum has two bytes: by value, the high one is first. -/
theorem checksumByte_eq_some {x cnt : Word} {b : Byte}
    (h : (cnt = 0 ∧ b.toNat = x.toNat / 256) ∨ (cnt = 1 ∧ b.toNat = x.toNat % 256)) :
    checksumByte x cnt = some b := by
  obtain ⟨rfl, hb⟩ | ⟨rfl, hb⟩ := h
  · exact congrArg some (BitVec.eq_of_toNat_eq ((highByte_toNat x).trans hb.symm))
  · exact congrArg some (BitVec.eq_of_toNat_eq ((lowByte_toNat x).trans hb.symm))

theorem checksumByte_eq_none {x cnt : Word} (h : 2 ≤ cnt.toNat) : checksumByte x cnt = none := by
  have h0 : cnt ≠ 0 := fun hc => by rw [hc] at h; exact absurd h (by decide)
  have h1 : cnt ≠ 1 := fun hc => by rw [hc] at h; exact absurd h (by decide)
  rw [checksumByte, if_neg h0, if_neg h1]

theorem nextByte_header {s : State} {n : Fin Config.nHdr} (h : s.enc.cnt = BitVec.ofNat 16 n.val) :
    nextByte .header s = (some (memRead s n), s) := by
  have hn : n.val < 128 := n.isLt
  have hcnt : s.enc.cnt.toNat = n.val := by rw [h, BitVec.toNat_ofNat]; omega
  have hfin : Fin.ofNat Config.nHdr n.val = n := Fin.ext (Nat.mod_eq_of_lt hn)
  simp only [nextByte, hcnt, hfin, if_pos hn]

theorem nextByte_body_read {s : State} {b : Byte} {src : Source} (h : s.enc.cnt < s.enc.blen)
    (hr : s.source.read = (some b, src)) :
    nextByte .body s = (some b, (s.setSource src).addEvent (.read (some b))) := by
  simp only [nextByte, if_pos h, srcRead_eq hr]

theorem nextByte_body_fail {s : State} {src : Source} (h : s.enc.cnt < s.enc.blen)
    (hr : s.source.read = (none, src)) :
    nextByte .body s = (none, raise .streamExhausted ((s.setSource src).addEvent (.read none))) := by
  simp only [nextByte, if_pos h, srcRead_eq hr]

/-- With its range used up a source gives no byte and is not asked. -/
theorem nextByte_of_limit_le {src : ByteSource} {s : State} (h : (byteLimit src s.enc).toNat ≤ s.enc.cnt.toNat) :
    nextByte src s = (none, s) := by
  cases src with
  | header =>
    have hge : ¬ s.enc.cnt.toNat < Config.nHdr := Nat.not_lt.2 h
    rw [nextByte, if_neg hge]
  | headerChecksum => rw [nextByte, checksumByte_eq_none h]
  | body =>
    have hge : ¬ s.enc.cnt < s.enc.blen := Nat.not_lt.2 h
    rw [nextByte, if_neg hge]
  | bodyChecksum => rw [nextByte, checksumByte_eq_none h]

/-- A source that gives a byte has not used up its range. -/
theorem cnt_lt_of_nextByte {src : ByteSource} {s s' : State} {b : Byte} (h : nextByte src s = (some b, s')) :
    s.enc.cnt.toNat < (byteLimit src s.enc).toNat := by
  by_contra hle
  rw [nextByte_of_limit_le (Nat.le_of_not_lt hle)] at h
  cases h

/-! ### The three cases of a byte-producing stage -/

theorem byteStage_of_loaded (src : ByteSource) (next : BitVec 5) {s : State} (h : s.enc.loaded = true) :
    byteStage src next s = s.mapEnc emitMzfBit := by
  simp only [byteStage, loadOrExhaust, h, if_true]

theorem byteStage_load {src : ByteSource} (next : BitVec 5) {s s' : State} {b : Byte} (h : s.enc.loaded = false)
    (hn : nextByte src s = (some b, s')) :
    byteStage src next s = s'.mapEnc fun e => emitMzfBit (accumulate src b (loadMzfByte b e)) := by
  simp only [byteStage, loadOrExhaust, h, hn]; rfl

theorem byteStage_exhaust {src : ByteSource} (next : BitVec 5) {s s' : State} (h : s.enc.loaded = false)
    (hn : nextByte src s = (none, s')) :
    byteStage src next s = s'.mapEnc fun e => goTo next { e with period := 0 } := by
  simp only [byteStage, loadOrExhaust, h, hn]; rfl

theorem accumulate_of_ne_body {src : ByteSource} (h : src ≠ .body) (b : Byte) (e : Enc) : accumulate src b e = e :=
  if_neg h

/-! ### The halves of a byte's pulses -/

theorem emitMzfBit_leader_up {e : Enc} (hl : e.lead = false) (hp : e.phalf = false) :
    emitMzfBit e = { e with period := Config.tLU, phalf := true } := by
  simp only [emitMzfBit, pulseCompletes, hl, hp, pulse_up _ hp]; rfl

theorem emitMzfBit_leader_down {e : Enc} (hl : e.lead = false) (hp : e.phalf = true) :
    emitMzfBit e = { e with period := Config.tLD, phalf := false, lead := true } := by
  simp only [emitMzfBit, pulseCompletes, hl, hp, pulse_down _ hp]; rfl

theorem emitMzfBit_data_up {e : Enc} (hl : e.lead = true) (hp : e.phalf = false) :
    emitMzfBit e = { e with period := up (mzfKind (mzfDataBit e)), phalf := true } := by
  simp only [emitMzfBit, pulseCompletes, hl, hp, pulse_up _ hp]; rfl

theorem emitMzfBit_data_down {e : Enc} (hl : e.lead = true) (hp : e.phalf = true) (hm : e.bmask ≠ 0x01) :
    emitMzfBit e = { e with period := down (mzfKind (mzfDataBit e)), phalf := false, bmask := e.bmask >>> 1 } := by
  rcases emitMzfBit_cases e with ⟨hl', _⟩ | ⟨hl', _⟩ | ⟨_, hp', _⟩ | ⟨_, _, _, he⟩ | ⟨_, _, hm', _⟩
  · simp [hl] at hl'
  · simp [hl] at hl'
  · simp [hp] at hp'
  · exact he
  · exact absurd hm' hm

theorem emitMzfBit_data_last {e : Enc} (hl : e.lead = true) (hp : e.phalf = true) (hm : e.bmask = 0x01) :
    emitMzfBit e = { e with
      period := down (mzfKind (mzfDataBit e)), phalf := false, bmask := 0, loaded := false } := by
  rcases emitMzfBit_cases e with ⟨hl', _⟩ | ⟨hl', _⟩ | ⟨_, hp', _⟩ | ⟨_, _, hm', _⟩ | ⟨_, _, _, he⟩
  · simp [hl] at hl'
  · simp [hl] at hl'
  · simp [hp] at hp'
  · exact absurd hm hm'
  · rw [he, hm]; rfl

theorem up_mzfKind_dataBit (e : Enc) :
    up (mzfKind (mzfDataBit e)) = if e.cur &&& e.bmask ≠ 0 then Config.tLU else Config.tSU := by
  by_cases h : e.cur &&& e.bmask = 0
  · rw [mzfDataBit, if_neg (not_not.2 h), h]; rfl
  · rw [mzfDataBit, if_pos h, bne_iff_ne.2 h]; rfl

theorem down_mzfKind_dataBit (e : Enc) :
    down (mzfKind (mzfDataBit e)) = if e.cur &&& e.bmask ≠ 0 then Config.tLD else Config.tSD := by
  by_cases h : e.cur &&& e.bmask = 0
  · rw [mzfDataBit, if_neg (not_not.2 h), h]; rfl
  · rw [mzfDataBit, if_pos h, bne_iff_ne.2 h]; rfl

/-- Settles O26: each line of the list is a byte-producing row, and its tick with a byte in progress is `EmitMzfBit`. -/
theorem byteInProgressEmitsItsPulses : Obligations.ByteInProgressEmitsItsPulses := by
  intro s i code hrow j hj hloaded
  obtain ⟨hdec, src, next, htable⟩ : decode .mzfStage code.toNat = .ok i ∧
      ∃ src next, mzfTable code = .bytes src next := by
    simp only [List.mem_cons, Prod.mk.injEq, List.not_mem_nil, or_false] at hrow
    obtain ⟨rfl, rfl⟩ | ⟨rfl, rfl⟩ | ⟨rfl, rfl⟩ | ⟨rfl, rfl⟩ | ⟨rfl, rfl⟩ | ⟨rfl, rfl⟩ := hrow <;>
      exact ⟨rfl, _, _, rfl⟩
  rw [exec_mzfStage hdec hj, htable, runMzfRow, byteStage_of_loaded _ _ hloaded, State.mapEnc,
    ← up_mzfKind_dataBit, ← down_mzfKind_dataBit]
  refine ⟨fun hl hp => ?_, fun hl hp => ?_, fun hl hp => ?_, fun hl hp hm => ?_, fun hl hp hm => ?_⟩
  · rw [emitMzfBit_leader_up hl hp]; rfl
  · rw [emitMzfBit_leader_down hl hp]; rfl
  · rw [emitMzfBit_data_up hl hp]; rfl
  · rw [emitMzfBit_data_down hl hp hm]; rfl
  · rw [emitMzfBit_data_last hl hp hm]; rfl

/-! ### Loading a byte -/

/-- A byte loaded between pulses begins its leader on the same tick. -/
theorem emitMzfBit_load (src : ByteSource) (b : Byte) {e : Enc} (hp : e.phalf = false) :
    emitMzfBit (accumulate src b (loadMzfByte b e)) =
      { accumulate src b (loadMzfByte b e) with period := Config.tLU, phalf := true } :=
  emitMzfBit_leader_up (by rw [accumulate_lead, loadMzfByte_lead]) (by rw [accumulate_phalf, loadMzfByte_phalf, hp])

/-- A stage that finds its byte in the registers loads it and begins its leader. -/
theorem byteStage_load_cached {src : ByteSource} (next : BitVec 5) {s : State} {b : Byte} (hsrc : src ≠ .body)
    (hl : s.enc.loaded = false) (hp : s.enc.phalf = false) (hn : nextByte src s = (some b, s)) :
    byteStage src next s = s.setEnc { s.enc with
      cur := b, loaded := true, lead := false, bmask := 0x80, cnt := s.enc.cnt + 1,
      period := Config.tLU, phalf := true } := by
  rw [byteStage_load next hl hn, State.mapEnc, emitMzfBit_load _ _ hp, accumulate_of_ne_body hsrc]; rfl

/-- Settles O23: the three kinds of stage differ in where the byte stands, and load it alike. -/
theorem cachedStagesLoadTheNextByte : Obligations.CachedStagesLoadTheNextByte := by
  intro s b i code hl hp hrow j hj
  obtain ⟨hdec, src, next, htable, hsrc, hn⟩ : decode .mzfStage code.toNat = .ok i ∧
      ∃ src next, mzfTable code = .bytes src next ∧ src ≠ .body ∧ nextByte src s = (some b, s) := by
    simp only [List.mem_cons, Prod.mk.injEq, List.not_mem_nil, or_false] at hrow
    obtain ⟨hcode, n, hcnt, rfl⟩ | ⟨hcode, hb⟩ | ⟨hcode, hb⟩ := hrow
    · have hn := nextByte_header hcnt
      obtain ⟨rfl, rfl⟩ | ⟨rfl, rfl⟩ := hcode <;> exact ⟨rfl, _, _, rfl, by decide, hn⟩
    · have hn : nextByte .headerChecksum s = (some b, s) := by rw [nextByte, checksumByte_eq_some hb]
      obtain ⟨rfl, rfl⟩ | ⟨rfl, rfl⟩ := hcode <;> exact ⟨rfl, _, _, rfl, by decide, hn⟩
    · have hn : nextByte .bodyChecksum s = (some b, s) := by rw [nextByte, checksumByte_eq_some hb]
      obtain ⟨rfl, rfl⟩ := hcode
      exact ⟨rfl, _, _, rfl, by decide, hn⟩
  rw [exec_mzfStage hdec hj, htable, runMzfRow, byteStage_load_cached next hsrc hl hp hn]

/-- Settles O24. -/
theorem bodyStageLoadsAndAccumulates : Obligations.BodyStageLoadsAndAccumulates := by
  intro s b src j hj hl hp hcnt hr
  rw [exec_mzfStage (c := 12) (i := .mzfBody1) rfl hj, show mzfTable 12 = .bytes .body 13 from rfl, runMzfRow,
    byteStage_load _ hl (nextByte_body_read hcnt hr), State.mapEnc, addEvent_enc, setSource_enc, emitMzfBit_load _ _ hp]
  rfl

/-! ### The end of a byte-producing stage -/

/-- A stage with its range used up makes its zero tick and no request. -/
theorem byteStage_of_limit_le {src : ByteSource} (next : BitVec 5) {s : State} (hl : s.enc.loaded = false)
    (h : (byteLimit src s.enc).toNat ≤ s.enc.cnt.toNat) :
    byteStage src next s = s.setEnc (goTo next { s.enc with period := 0 }) :=
  byteStage_exhaust next hl (nextByte_of_limit_le h)

/-- Settles O25: a used-up range, FCS1's with its entry to TERMINAL, and the body's failing READ. -/
theorem byteStagesEndWithAZeroTick : Obligations.ByteStagesEndWithAZeroTick := by
  intro s j hl
  refine ⟨fun i code next limit hrow hj hlim => ?_, fun hj hlim => ?_, fun src hj hcnt hr => ?_⟩
  · obtain ⟨hdec, src, htable, rfl, hne⟩ : decode .mzfStage code.toNat = .ok i ∧
        ∃ src, mzfTable code = .bytes src next ∧ limit = (byteLimit src s.enc).toNat ∧ next ≠ 16 ∧ next ≠ 12 := by
      simp only [List.mem_cons, Prod.mk.injEq, List.not_mem_nil, or_false] at hrow
      obtain ⟨rfl, rfl, rfl, rfl⟩ | ⟨rfl, rfl, rfl, rfl⟩ | ⟨rfl, rfl, rfl, rfl⟩ | ⟨rfl, rfl, rfl, rfl⟩ |
        ⟨rfl, rfl, rfl, rfl⟩ := hrow <;> exact ⟨rfl, _, rfl, rfl, by decide, by decide⟩
    rw [exec_mzfStage hdec hj, htable, runMzfRow, byteStage_of_limit_le next hl hlim, goTo_of_ne_terminal hne.1,
      if_neg hne.2]
  · rw [exec_mzfStage (c := 13) (i := .mzfFcs1) rfl hj, show mzfTable 13 = .bytes .bodyChecksum 16 from rfl, runMzfRow,
      byteStage_of_limit_le (src := .bodyChecksum) 16 hl hlim]
    rfl
  · rw [exec_mzfStage (c := 12) (i := .mzfBody1) rfl hj, show mzfTable 12 = .bytes .body 13 from rfl, runMzfRow,
      byteStage_exhaust _ hl (nextByte_body_fail hcnt hr)]
    rfl

/-! ### Which stage a tick ends in (10_state.md R26) -/

theorem pulseStage_mstage (k : PulseKind) (n : Nat) (next : BitVec 5) (e : Enc) :
    (pulseStage k n next e).mstage = e.mstage ∨ (pulseStage k n next e).mstage = next := by
  rcases pulseStage_cases k n next e with ⟨_, he⟩ | ⟨_, _, he⟩ | ⟨_, _, he⟩ <;> rw [he]
  · exact .inl rfl
  · exact .inl rfl
  · exact .inr rfl

/-- The registers a byte-producing stage leaves: those of `EmitMzfBit`, with a byte loaded first where none was in
progress, or those of the entry to the next stage. -/
theorem byteStage_enc_cases (src : ByteSource) (next : BitVec 5) (s : State) :
    (s.enc.loaded = true ∧ (byteStage src next s).enc = emitMzfBit s.enc) ∨
    (s.enc.loaded = false ∧ s.enc.cnt.toNat < (byteLimit src s.enc).toNat ∧
      ∃ b, (byteStage src next s).enc = emitMzfBit (accumulate src b (loadMzfByte b s.enc))) ∨
    (s.enc.loaded = false ∧ (byteStage src next s).enc = goTo next { s.enc with period := 0 }) := by
  rcases byteStage_cases src next s with ⟨hl, hs⟩ | ⟨hl, b, s', hn, hs⟩ | ⟨hl, s', hn, hs⟩ <;> rw [hs, mapEnc_enc]
  · exact .inl ⟨hl, rfl⟩
  · exact .inr (.inl ⟨hl, cnt_lt_of_nextByte hn, b, by rw [(nextByte_frame hn).1]⟩)
  · exact .inr (.inr ⟨hl, by rw [(nextByte_frame hn).1]⟩)

theorem byteStage_mstage (src : ByteSource) (next : BitVec 5) (s : State) :
    (byteStage src next s).enc.mstage = s.enc.mstage ∨ (byteStage src next s).enc.mstage = next := by
  rcases byteStage_enc_cases src next s with ⟨_, he⟩ | ⟨_, _, b, he⟩ | ⟨_, he⟩ <;> rw [he]
  · exact .inl (emitMzfBit_mstage _)
  · exact .inl (by simp)
  · exact .inr rfl

/-- Settles O44: the next stage of a row is the one after, or TERMINAL after FCS1. -/
theorem mzfStagesOnlyMoveForward : Obligations.MzfStagesOnlyMoveForward := by
  intro s t hlive h
  have hmove : t.enc.mstage = s.enc.mstage ∨
      (t.enc.mstage.toNat = s.enc.mstage.toNat + 1 ∧ s.enc.mstage.toNat ≤ 12) ∨
      (s.enc.mstage.toNat = 13 ∧ t.enc.mstage = 16) := by
    rcases exec_mzfTick_cases h with ⟨k, n, next, hrow, rfl⟩ | ⟨src, next, hrow, rfl⟩ | ⟨hrow, rfl⟩
    · obtain ⟨_, _, hsucc, hle⟩ := mzfTable_pulses hrow
      obtain hm | hm := pulseStage_mstage k n next s.enc
      · exact .inl hm
      · exact .inr (.inl (by rw [mapEnc_enc, hm]; omega))
    · obtain ⟨_, hnext⟩ := mzfTable_bytes hrow
      obtain hm | hm := byteStage_mstage src next s
      · exact .inl hm
      · rw [hm]
        obtain ⟨hsucc, hle⟩ | ⟨hlast, hterm⟩ := hnext
        · exact .inr (.inl ⟨hsucc, by omega⟩)
        · exact .inr (.inr ⟨hlast, hterm⟩)
    · exact .inl rfl
  have htask := (exec_mzfTick_handOff h).2
  obtain hsame | ⟨hsucc, hle⟩ | ⟨hlast, hterm⟩ := hmove
  · exact ⟨.inl hsame, fun h14 => by rw [← hsame, h14] at hlive; exact absurd hlive (by decide),
      fun h15 => by rw [← hsame, h15] at hlive; exact absurd hlive (by decide)⟩
  · exact ⟨.inr (.inl ⟨hsucc, hle⟩), fun h14 => by rw [h14, show (14 : BitVec 5).toNat = 14 from rfl] at hsucc; omega,
      fun h15 => by rw [h15, show (15 : BitVec 5).toNat = 15 from rfl] at hsucc; omega⟩
  · rw [hterm] at htask ⊢
    exact ⟨.inr (.inr ⟨hlast, rfl, htask⟩), by decide, by decide⟩

end Sys2Proof.Machine
end

section
/-! Runs of MZF_TICK through a pulse-counted stage and through one byte (43_mzf.md R166, 41_byte_cursor.md R135). -/

namespace Sys2Proof.Machine

/-! ### Runs -/

theorem repeatExec_one {i : Instr} {s t : State} (h : exec i s = .next t) :
    repeatExec i 1 s = .next ([t.enc.period], t) := repeatExec_succ h rfl

theorem repeatExec_two {i : Instr} {s t u : State} {ps : List Period} (h : exec i s = .next t)
    (h' : exec i t = .next u) (hps : [t.enc.period, u.enc.period] = ps) : repeatExec i 2 s = .next (ps, u) :=
  hps ▸ repeatExec_succ h (repeatExec_one h')

/-- Only the first command of a run sees the state it starts from. -/
theorem repeatExec_congr {i : Instr} {s s' : State} (h : exec i s = exec i s') (n : Nat) :
    repeatExec i (n + 1) s = repeatExec i (n + 1) s' := by
  simp only [repeatExec, h]

theorem halves_append (ks ks' : List PulseKind) : halves (ks ++ ks') = halves ks ++ halves ks' := List.flatMap_append

theorem halves_cons (k : PulseKind) (ks : List PulseKind) : halves (k :: ks) = [up k, down k] ++ halves ks :=
  List.flatMap_cons

/-! ### A pulse-counted stage -/

theorem exec_mzfTick_pulses {s : State} {k : PulseKind} {n : Nat} {next : BitVec 5}
    (h : mzfTable s.enc.mstage = .pulses k n next) : exec .mzfTick s = .next (s.mapEnc (pulseStage k n next)) := by
  rw [exec_mzfTick, h, runMzfRow]

theorem pulses_next_ne_terminal {c next : BitVec 5} {k : PulseKind} {n : Nat} (h : mzfTable c = .pulses k n next) :
    next ≠ 16 := by
  rintro rfl
  exact absurd (mzfTable_pulses h).2.2.2 (by decide)

theorem exec_mzfTick_pulse_up {s : State} {k : PulseKind} {n : Nat} {next : BitVec 5}
    (h : mzfTable s.enc.mstage = .pulses k n next) (hp : s.enc.phalf = false) :
    exec .mzfTick s = .next (s.setEnc { s.enc with period := up k, phalf := true }) := by
  rw [exec_mzfTick_pulses h, State.mapEnc, pulseStage_up _ _ _ hp, State.setEnc]

theorem exec_mzfTick_pulse_count {s : State} {k : PulseKind} {n : Nat} {next : BitVec 5}
    (h : mzfTable s.enc.mstage = .pulses k n next) (hp : s.enc.phalf = true)
    (hn : s.enc.cnt + 1 ≠ BitVec.ofNat 16 n) :
    exec .mzfTick s = .next (s.setEnc { s.enc with period := down k, phalf := false, cnt := s.enc.cnt + 1 }) := by
  rw [exec_mzfTick_pulses h, State.mapEnc, pulseStage_count _ _ hp hn, State.setEnc]

theorem exec_mzfTick_pulse_last {s : State} {k : PulseKind} {n : Nat} {next : BitVec 5}
    (h : mzfTable s.enc.mstage = .pulses k n next) (hp : s.enc.phalf = true)
    (hn : s.enc.cnt + 1 = BitVec.ofNat 16 n) :
    exec .mzfTick s = .next (s.setEnc { s.enc with
      period := down k, phalf := false, cnt := 0, mstage := next, fcs := if next = 12 then 0 else s.enc.fcs }) := by
  rw [exec_mzfTick_pulses h, State.mapEnc, pulseStage_last _ hp hn (pulses_next_ne_terminal h), State.setEnc]

/-- The next pulse, where it only counts: its two halves. -/
theorem mzfTick_two_counting {s : State} {k : PulseKind} {n : Nat} {next : BitVec 5}
    (h : mzfTable s.enc.mstage = .pulses k n next) (hp : s.enc.phalf = false)
    (hn : s.enc.cnt + 1 ≠ BitVec.ofNat 16 n) :
    repeatExec .mzfTick 2 s =
      .next ([up k, down k], s.setEnc { s.enc with period := down k, phalf := false, cnt := s.enc.cnt + 1 }) :=
  repeatExec_two (exec_mzfTick_pulse_up h hp)
    (exec_mzfTick_pulse_count (s := s.setEnc { s.enc with period := up k, phalf := true }) h rfl hn) rfl

/-- The last pulse of the stage: its two halves, the second of which enters the next stage. -/
theorem mzfTick_two_last {s : State} {k : PulseKind} {n : Nat} {next : BitVec 5}
    (h : mzfTable s.enc.mstage = .pulses k n next) (hp : s.enc.phalf = false)
    (hn : s.enc.cnt + 1 = BitVec.ofNat 16 n) :
    repeatExec .mzfTick 2 s = .next ([up k, down k], s.setEnc { s.enc with
      period := down k, phalf := false, cnt := 0, mstage := next, fcs := if next = 12 then 0 else s.enc.fcs }) :=
  repeatExec_two (exec_mzfTick_pulse_up h hp)
    (exec_mzfTick_pulse_last (s := s.setEnc { s.enc with period := up k, phalf := true }) h rfl hn) rfl

/-- The rest of a stage, `m + 1` pulses before its end. -/
theorem mzfTick_rest_of_pulses {k : PulseKind} {n : Nat} {next : BitVec 5} (m : Nat) : ∀ {s : State},
    mzfTable s.enc.mstage = .pulses k n next → s.enc.phalf = false → s.enc.cnt.toNat + (m + 1) = n →
    repeatExec .mzfTick (2 * (m + 1)) s = .next (halves (List.replicate (m + 1) k), s.setEnc { s.enc with
      period := down k, phalf := false, cnt := 0, mstage := next, fcs := if next = 12 then 0 else s.enc.fcs }) := by
  induction m with
  | zero =>
    intro s h hp hcnt
    have hlast : s.enc.cnt + 1 = BitVec.ofNat 16 n := by
      rw [← hcnt, zero_add, BitVec.ofNat_add, BitVec.ofNat_toNat, BitVec.setWidth_eq]
      rfl
    exact mzfTick_two_last h hp hlast
  | succ m ih =>
    intro s h hp hcnt
    obtain ⟨_, hlt, _⟩ := mzfTable_pulses h
    have hsucc : (s.enc.cnt + 1).toNat = s.enc.cnt.toNat + 1 := by
      rw [BitVec.toNat_add, show (1 : Word).toNat = 1 from rfl]; omega
    have hmore : s.enc.cnt + 1 ≠ BitVec.ofNat 16 n := by
      intro hc
      have := congrArg BitVec.toNat hc
      rw [hsucc, BitVec.toNat_ofNat] at this
      omega
    have hrest := ih (s := s.setEnc { s.enc with period := down k, phalf := false, cnt := s.enc.cnt + 1 }) h rfl
      (by rw [setEnc_enc, hsucc]; omega)
    rw [show 2 * (m + 1 + 1) = 2 + 2 * (m + 1) by ring, List.replicate_succ, halves_cons]
    exact repeatExec_append (mzfTick_two_counting h hp hmore) hrest

/-- Settles O22: the rest of the stage, from its first pulse on. -/
theorem pulseStageLastsTwiceItsCount : Obligations.PulseStageLastsTwiceItsCount := by
  rintro _ k n next hrow s rfl hcnt hp
  obtain ⟨m, rfl⟩ := Nat.exists_eq_succ_of_ne_zero (mzfTable_pulses hrow).1.ne'
  have hrun := mzfTick_rest_of_pulses m hrow hp (by rw [hcnt]; exact Nat.zero_add _)
  rw [hrun, ← hp]

/-! ### One byte -/

theorem exec_mzfTick_bytes {s : State} {src : ByteSource} {next : BitVec 5}
    (h : mzfTable s.enc.mstage = .bytes src next) : exec .mzfTick s = .next (byteStage src next s) := by
  rw [exec_mzfTick, h, runMzfRow]

theorem exec_mzfTick_loaded {s : State} {src : ByteSource} {next : BitVec 5}
    (h : mzfTable s.enc.mstage = .bytes src next) (hl : s.enc.loaded = true) :
    exec .mzfTick s = .next (s.mapEnc emitMzfBit) := by
  rw [exec_mzfTick_bytes h, byteStage_of_loaded _ _ hl]

/-- Two ticks with a byte in progress, the first of which does not end it. -/
theorem mzfTick_two_loaded {s : State} {src : ByteSource} {next : BitVec 5}
    (h : mzfTable s.enc.mstage = .bytes src next) (hl : s.enc.loaded = true)
    (hl' : (emitMzfBit s.enc).loaded = true) :
    repeatExec .mzfTick 2 s = .next ([(emitMzfBit s.enc).period, (emitMzfBit (emitMzfBit s.enc)).period],
      s.setEnc (emitMzfBit (emitMzfBit s.enc))) :=
  repeatExec_two (exec_mzfTick_loaded h hl)
    (exec_mzfTick_loaded (s := s.mapEnc emitMzfBit) (by rw [mapEnc_enc, emitMzfBit_mstage, h]) hl') rfl

/-- The leader pulse of a byte. -/
theorem mzfTick_two_leader {s : State} {src : ByteSource} {next : BitVec 5}
    (h : mzfTable s.enc.mstage = .bytes src next) (hl : s.enc.loaded = true) (hlead : s.enc.lead = false)
    (hp : s.enc.phalf = false) :
    repeatExec .mzfTick 2 s = .next ([up .long, down .long],
      s.setEnc { s.enc with period := Config.tLD, phalf := false, lead := true }) := by
  have hup : emitMzfBit s.enc = { s.enc with period := Config.tLU, phalf := true } := emitMzfBit_leader_up hlead hp
  have hdown : emitMzfBit (emitMzfBit s.enc) = { s.enc with period := Config.tLD, phalf := false, lead := true } := by
    rw [hup]; exact emitMzfBit_leader_down hlead rfl
  rw [mzfTick_two_loaded h hl (by rw [hup, hl]), hdown, hup]
  rfl

/-- The bits of a byte from bit `j` down to bit 0. -/
def lowBits (b : Byte) : Nat → List Bool
  | 0 => [b.getLsbD 0]
  | j + 1 => b.getLsbD (j + 1) :: lowBits b j

theorem lowBits_seven (b : Byte) : lowBits b 7 = bitsMsbFirst b := rfl

theorem mzfDataBit_of_bmask {e : Enc} {j : Nat} (hj : j < 8) (h : e.bmask = BitVec.twoPow 8 j) :
    mzfDataBit e = e.cur.getLsbD j := by
  have hne : BitVec.twoPow 8 j ≠ 0 := by interval_cases j <;> decide
  rw [mzfDataBit, h, BitVec.and_twoPow]
  cases e.cur.getLsbD j with
  | true => rw [if_pos rfl]; exact bne_iff_ne.2 hne
  | false => rfl

/-- The data pulse of bit `j + 1`, which is not the last. -/
theorem mzfTick_two_data {s : State} {src : ByteSource} {next : BitVec 5} {j : Nat}
    (h : mzfTable s.enc.mstage = .bytes src next) (hl : s.enc.loaded = true) (hlead : s.enc.lead = true)
    (hp : s.enc.phalf = false) (hj : j < 7) (hm : s.enc.bmask = BitVec.twoPow 8 (j + 1)) :
    repeatExec .mzfTick 2 s =
      .next ([up (mzfKind (s.enc.cur.getLsbD (j + 1))), down (mzfKind (s.enc.cur.getLsbD (j + 1)))],
        s.setEnc { s.enc with
          period := down (mzfKind (s.enc.cur.getLsbD (j + 1))), phalf := false, bmask := BitVec.twoPow 8 j }) := by
  have hnot_last : s.enc.bmask ≠ 0x01 := by rw [hm]; interval_cases j <;> decide
  have hshift : s.enc.bmask >>> 1 = BitVec.twoPow 8 j := by rw [hm]; interval_cases j <;> rfl
  have hup := emitMzfBit_data_up hlead hp
  have hdown : emitMzfBit (emitMzfBit s.enc) = { s.enc with
      period := down (mzfKind (mzfDataBit s.enc)), phalf := false, bmask := s.enc.bmask >>> 1 } := by
    rw [hup]; exact emitMzfBit_data_down hlead rfl hnot_last
  rw [mzfTick_two_loaded h hl (by rw [hup, hl]), hdown, hup, hshift, mzfDataBit_of_bmask (Nat.succ_lt_succ hj) hm]

/-- The data pulse of bit 0, whose second half ends the byte. -/
theorem mzfTick_two_last_data {s : State} {src : ByteSource} {next : BitVec 5}
    (h : mzfTable s.enc.mstage = .bytes src next) (hl : s.enc.loaded = true) (hlead : s.enc.lead = true)
    (hp : s.enc.phalf = false) (hm : s.enc.bmask = BitVec.twoPow 8 0) :
    repeatExec .mzfTick 2 s =
      .next ([up (mzfKind (s.enc.cur.getLsbD 0)), down (mzfKind (s.enc.cur.getLsbD 0))], s.setEnc { s.enc with
        period := down (mzfKind (s.enc.cur.getLsbD 0)), phalf := false, bmask := 0, loaded := false }) := by
  have hup := emitMzfBit_data_up hlead hp
  have hdown : emitMzfBit (emitMzfBit s.enc) = { s.enc with
      period := down (mzfKind (mzfDataBit s.enc)), phalf := false, bmask := 0, loaded := false } := by
    rw [hup]; exact emitMzfBit_data_last hlead rfl hm
  rw [mzfTick_two_loaded h hl (by rw [hup, hl]), hdown, hup, mzfDataBit_of_bmask (by decide) hm]

/-- The data pulses from bit `j` on, to the end of the byte. -/
theorem mzfTick_data_pulses {src : ByteSource} {next : BitVec 5} (j : Nat) : ∀ {s : State},
    mzfTable s.enc.mstage = .bytes src next → s.enc.loaded = true → s.enc.lead = true → s.enc.phalf = false →
    j < 8 → s.enc.bmask = BitVec.twoPow 8 j →
    repeatExec .mzfTick (2 * (j + 1)) s = .next (halves ((lowBits s.enc.cur j).map mzfKind), s.setEnc { s.enc with
      period := down (mzfKind (s.enc.cur.getLsbD 0)), phalf := false, bmask := 0, loaded := false }) := by
  induction j with
  | zero => exact fun h hl hlead hp _ hm => mzfTick_two_last_data h hl hlead hp hm
  | succ j ih =>
    intro s h hl hlead hp hj hm
    rw [show 2 * (j + 1 + 1) = 2 + 2 * (j + 1) by ring, lowBits, List.map_cons, halves_cons]
    refine repeatExec_append (mzfTick_two_data h hl hlead hp (Nat.lt_of_succ_lt_succ hj) hm) ?_
    exact ih (s := s.setEnc { s.enc with
        period := down (mzfKind (s.enc.cur.getLsbD (j + 1))), phalf := false, bmask := BitVec.twoPow 8 j })
      h hl hlead rfl (by omega) rfl

/-- The registers after the frame of a byte that stood in the cursor of `e`. -/
def frameSent (e : Enc) : Enc :=
  { e with loaded := false, lead := true, bmask := 0, phalf := false, period := down (mzfKind (e.cur.getLsbD 0)) }

/-- A byte just loaded takes 18 ticks. -/
theorem mzfTick_frame {s : State} {src : ByteSource} {next : BitVec 5} (h : mzfTable s.enc.mstage = .bytes src next)
    (hl : s.enc.loaded = true) (hlead : s.enc.lead = false) (hp : s.enc.phalf = false) (hm : s.enc.bmask = 0x80) :
    repeatExec .mzfTick 18 s = .next (halves (mzfFrame s.enc.cur), s.setEnc (frameSent s.enc)) := by
  rw [mzfFrame, halves_cons, ← lowBits_seven]
  refine repeatExec_append (m := 2) (n := 2 * (7 + 1)) (mzfTick_two_leader h hl hlead hp) ?_
  exact mzfTick_data_pulses 7
    (s := s.setEnc { s.enc with period := Config.tLD, phalf := false, lead := true }) h hl rfl rfl (by decide) hm

/-- The tick that loads a byte is the first tick of the byte's frame in the state with the byte loaded. -/
theorem exec_mzfTick_load {s s' : State} {src : ByteSource} {next : BitVec 5} {b : Byte}
    (h : mzfTable s.enc.mstage = .bytes src next) (hl : s.enc.loaded = false) (hn : nextByte src s = (some b, s')) :
    exec .mzfTick s = exec .mzfTick (s'.mapEnc fun e => accumulate src b (loadMzfByte b e)) := by
  have hs' : s'.enc = s.enc := (nextByte_frame hn).1
  have hrow : mzfTable (s'.mapEnc fun e => accumulate src b (loadMzfByte b e)).enc.mstage = .bytes src next := by
    rw [mapEnc_enc, accumulate_mstage, loadMzfByte_mstage, hs', h]
  rw [exec_mzfTick_bytes h, byteStage_load next hl hn, exec_mzfTick_loaded hrow (by simp)]
  rfl

/-- A byte the source gives at a pulse boundary takes 18 ticks from the one that loads it. -/
theorem mzfTick_byte {s s' : State} {src : ByteSource} {next : BitVec 5} {b : Byte}
    (h : mzfTable s.enc.mstage = .bytes src next) (hl : s.enc.loaded = false) (hp : s.enc.phalf = false)
    (hn : nextByte src s = (some b, s')) :
    repeatExec .mzfTick 18 s = .next (halves (mzfFrame b),
      s'.setEnc (frameSent (accumulate src b (loadMzfByte b s.enc)))) := by
  have hs' : s'.enc = s.enc := (nextByte_frame hn).1
  have hrun := mzfTick_frame (s := s'.mapEnc fun e => accumulate src b (loadMzfByte b e)) (src := src) (next := next)
    (by simp [hs', h]) (by simp) (by simp) (by simp [hs', hp]) (by simp [Config.bmaskFirst])
  rw [repeatExec_congr (exec_mzfTick_load h hl hn) 17, hrun]
  simp only [mapEnc_enc, accumulate_cur, loadMzfByte_cur, hs']
  rfl

/-- Settles O27: the frame of a byte, with the byte from a READ. -/
theorem bodyByteTakesEighteenTicks : Obligations.BodyByteTakesEighteenTicks := by
  intro s b src hm hl hp hcnt hr
  have hrow : mzfTable s.enc.mstage = .bytes .body 13 := by rw [hm]; rfl
  rw [mzfTick_byte hrow hl hp (nextByte_body_read hcnt hr)]
  cases hb : b.getLsbD 0 <;> simp only [frameSent, accumulate_cur, loadMzfByte_cur, hb] <;> rfl

end Sys2Proof.Machine
end

section
/-! The CAQ encoder (44_caq.md): one tick of a live stage case by case, one byte, and a whole session. -/

namespace Sys2Proof.Machine

/-- Settles O30: the second CAQ_INIT finds the override in force, and does not save again. -/
theorem secondCaqInitKeepsTheSavedBaud : Obligations.SecondCaqInitKeepsTheSavedBaud := by
  intro s t u hst htu
  have hovr : t.enc.ovr = true := by
    cases h : s.enc.ovr with
    | true => rw [exec_caqInit, saveBaud_of_ovr h] at hst; cases hst; exact h
    | false => rw [exec_caqInit, saveBaud_of_not_ovr h] at hst; cases hst; rfl
  rw [exec_caqInit, saveBaud_of_ovr hovr] at htu
  cases htu
  refine ⟨rfl, rfl, fun h => ?_⟩
  rw [exec_caqInit, saveBaud_of_not_ovr h] at hst
  cases hst
  rfl

/-! ### The three cases of a live stage -/

theorem caqStageTick_of_loaded (st : BitVec 3) {s : State} (h : s.enc.loaded = true) :
    caqStageTick st s = s.mapEnc (caqEmit st) := by
  simp only [caqStageTick, caqLoad, h, if_true]

theorem caqStageTick_load (st : BitVec 3) {s : State} {b : Byte} {src : Source} (h : s.enc.loaded = false)
    (hr : s.source.read = (some b, src)) :
    caqStageTick st s = ((s.setSource src).addEvent (.read (some b))).mapEnc
      fun e => caqEmit CaqStage.startBit (loadCaqByte b e) := by
  simp only [caqStageTick, caqLoad, h, srcRead_eq hr]; rfl

theorem caqStageTick_exhaust (st : BitVec 3) {s : State} {src : Source} (h : s.enc.loaded = false)
    (hr : s.source.read = (none, src)) :
    caqStageTick st s = caqExhausted ((s.setSource src).addEvent (.read none)) := by
  simp only [caqStageTick, caqLoad, h, srcRead_eq hr]; rfl

theorem caqExhausted_of_ovr {s : State} (h : s.enc.ovr = true) :
    caqExhausted s = { s with
      baud := s.enc.savedBaud
      trace := .baudWrite s.enc.savedBaud :: .raised .streamExhausted :: s.trace
      enc := { s.enc with cstage := 4, ovr := false, task := 2, period := 0 } } := by
  have hrestore := baudRestore_of_ovr
    (s := (raise .streamExhausted s).mapEnc fun e => { e with cstage := CaqStage.done }) h
  rw [caqExhausted, enterTerminal, hrestore]
  rfl

theorem caqExhausted_of_not_ovr {s : State} (h : s.enc.ovr = false) :
    caqExhausted s = { s with
      trace := .raised .streamExhausted :: s.trace
      enc := { s.enc with cstage := 4, task := 2, period := 0 } } := by
  have hrestore := baudRestore_of_not_ovr
    (s := (raise .streamExhausted s).mapEnc fun e => { e with cstage := CaqStage.done }) h
  rw [caqExhausted, enterTerminal, hrestore]
  rfl

/-- The live CAQ stages: as one of the four rows, or as CAQ_TICK below code 4. -/
theorem exec_caq_live {s : State} {j : Instr}
    (hj : j ∈ [Instr.caqStartBit, .caqDataBits, .caqStopBit1, .caqStopBit2] ∨ (j = .caqTick ∧ s.enc.cstage.toNat < 4)) :
    ∃ st, exec j s = .next (caqStageTick st s) := by
  obtain hrow | ⟨rfl, hlive⟩ := hj
  · simp only [List.mem_cons, List.not_mem_nil, or_false] at hrow
    obtain rfl | rfl | rfl | rfl := hrow <;> exact ⟨_, rfl⟩
  · exact ⟨_, by rw [exec_caqTick, runCaqStage, if_pos hlive]⟩

/-! ### The halves of a bit -/

theorem down_caqKind (bit : Bool) : down (caqKind bit) = up (caqKind bit) := by cases bit <;> rfl

theorem caqEmit_up (st : BitVec 3) {e : Enc} (h : e.phalf = false) :
    caqEmit st e = { e with period := up (caqKind (caqBit st e)), phalf := true } := by
  simp only [caqEmit, pulseCompletes, h, pulse_up _ h]; rfl

theorem caqEmit_first_down (st : BitVec 3) {e : Enc} (h : e.phalf = true) (hc : e.ccyc = false) :
    caqEmit st e = { e with period := up (caqKind (caqBit st e)), phalf := false, ccyc := true } := by
  rcases caqEmit_cases st e with ⟨hp, _⟩ | ⟨_, _, he⟩ | ⟨_, hc', _⟩
  · simp [h] at hp
  · rw [he, down_caqKind]
  · simp [hc] at hc'

theorem caqEmit_second_down (st : BitVec 3) {e : Enc} (h : e.phalf = true) (hc : e.ccyc = true) :
    caqEmit st e =
      caqAdvance st { e with period := up (caqKind (caqBit st e)), phalf := false, ccyc := false } := by
  rcases caqEmit_cases st e with ⟨hp, _⟩ | ⟨_, hc', _⟩ | ⟨_, _, he⟩
  · simp [h] at hp
  · simp [hc] at hc'
  · rw [he, down_caqKind]

/-- Settles O31. -/
theorem caqStagesLoadTheNextByte : Obligations.CaqStagesLoadTheNextByte := by
  intro s b src j hj hl hp hr
  obtain ⟨st, hexec⟩ := exec_caq_live hj
  have hup := caqEmit_up CaqStage.startBit (e := loadCaqByte b s.enc) hp
  rw [hexec, caqStageTick_load st hl hr, State.mapEnc, addEvent_enc, setSource_enc, hup]
  rfl

/-- Settles O32: the two values of `OVR` are the two cases of the restore. -/
theorem caqExhaustionCompletesTheSession : Obligations.CaqExhaustionCompletesTheSession := by
  intro s src j hj hl hr
  obtain ⟨st, hexec⟩ := exec_caq_live hj
  rw [hexec, caqStageTick_exhaust st hl hr]
  exact ⟨fun hovr => congrArg _ (caqExhausted_of_ovr hovr), fun hovr => congrArg _ (caqExhausted_of_not_ovr hovr)⟩

/-- The half-period of the bit sent in a live stage. -/
theorem up_caqBit (code : BitVec 3) (e : Enc) :
    up (caqKind (caqBit code e)) =
      if code = 0 then Config.tSpace
      else if code = 1 then (if e.cur.getLsbD e.bidx.toNat then Config.tMark else Config.tSpace) else Config.tMark := by
  unfold caqBit CaqStage.startBit CaqStage.dataBits
  by_cases h0 : code = 0
  · rw [if_pos h0, if_pos h0]; rfl
  by_cases h1 : code = 1
  · rw [if_neg h0, if_neg h0, if_pos h1, if_pos h1, caqDataBit]
    cases e.cur.getLsbD e.bidx.toNat <;> rfl
  · rw [if_neg h0, if_neg h0, if_neg h1, if_neg h1]; rfl

theorem caqAdvance_startBit (e : Enc) : caqAdvance 0 e = { e with cstage := 1 } := rfl
theorem caqAdvance_dataBits_last {e : Enc} (h : e.bidx = 0) : caqAdvance 1 e = { e with cstage := 2 } := if_pos h
theorem caqAdvance_dataBits {e : Enc} (h : e.bidx ≠ 0) : caqAdvance 1 e = { e with bidx := e.bidx - 1 } := if_neg h
theorem caqAdvance_stopBit1 (e : Enc) : caqAdvance 2 e = { e with cstage := 3 } := rfl
theorem caqAdvance_stopBit2 (e : Enc) : caqAdvance 3 e = { e with loaded := false } := rfl

/-- Settles O33: three halves of a bit only count; the fourth advances, as the stage says. -/
theorem caqStagesEmitTheirBits : Obligations.CaqStagesEmitTheirBits := by
  intro s i code hrow j hj hl p hperiod
  obtain ⟨hdec, hlive⟩ : decode .caqStage code.toNat = .ok i ∧ code.toNat < 4 := by
    simp only [List.mem_cons, Prod.mk.injEq, List.not_mem_nil, or_false] at hrow
    obtain ⟨rfl, rfl⟩ | ⟨rfl, rfl⟩ | ⟨rfl, rfl⟩ | ⟨rfl, rfl⟩ := hrow <;> exact ⟨rfl, by decide⟩
  obtain rfl : p = up (caqKind (caqBit code s.enc)) := hperiod.trans (up_caqBit code s.enc).symm
  rw [exec_caqStage hdec hj, runCaqStage, if_pos hlive, caqStageTick_of_loaded _ hl, State.mapEnc]
  refine ⟨fun hp => ?_, fun hp hc => ?_, fun hp hc => ?_⟩
  · rw [caqEmit_up _ hp]; rfl
  · rw [caqEmit_first_down _ hp hc]; rfl
  have hexec (e' : Enc) (h : caqAdvance code { s.enc with
      period := up (caqKind (caqBit code s.enc)), phalf := false, ccyc := false } = e') :
      Host.Outcome.next { s with enc := caqEmit code s.enc } = (.next (s.setEnc e') : Host.Outcome State Fault Refusal) := by
    rw [caqEmit_second_down _ hp hc, h, State.setEnc]
  refine ⟨fun hcode => hexec _ ?_, fun hcode hb => hexec _ ?_, fun hcode hb => hexec _ ?_, fun hcode => hexec _ ?_,
    fun hcode => hexec _ ?_⟩ <;> subst hcode
  · exact caqAdvance_startBit _
  · exact caqAdvance_dataBits_last hb
  · exact caqAdvance_dataBits hb
  · exact caqAdvance_stopBit1 _
  · exact caqAdvance_stopBit2 _

/-! ### One bit: two cycles of equal halves (30_encoding.md R101) -/

theorem exec_caqTick_loaded {s : State} (hlive : s.enc.cstage.toNat < 4) (hl : s.enc.loaded = true) :
    exec .caqTick s = .next (s.mapEnc (caqEmit s.enc.cstage)) := by
  rw [exec_caqTick, runCaqStage, if_pos hlive, caqStageTick_of_loaded _ hl]

theorem caqEmit_first_cycle (st : BitVec 3) {e : Enc} (hp : e.phalf = false) (hc : e.ccyc = false) :
    caqEmit st (caqEmit st e) =
      { e with period := up (caqKind (caqBit st e)), phalf := false, ccyc := true } := by
  rw [caqEmit_up _ hp]
  exact caqEmit_first_down _ rfl hc

theorem caqEmit_second_cycle (st : BitVec 3) {e : Enc} (hp : e.phalf = false) (hc : e.ccyc = true) :
    caqEmit st (caqEmit st e) =
      caqAdvance st { e with period := up (caqKind (caqBit st e)), phalf := false, ccyc := false } := by
  rw [caqEmit_up _ hp]
  exact caqEmit_second_down _ rfl hc

/-- A cycle of a bit, up half and down half. -/
theorem caqTick_two {s : State} {st : BitVec 3} (hst : s.enc.cstage = st) (hlive : st.toNat < 4)
    (hl : s.enc.loaded = true) (hp : s.enc.phalf = false) :
    repeatExec .caqTick 2 s = .next ([up (caqKind (caqBit st s.enc)), (caqEmit st (caqEmit st s.enc)).period],
      s.setEnc (caqEmit st (caqEmit st s.enc))) := by
  subst hst
  have hup := caqEmit_up s.enc.cstage hp
  have hfirst : exec .caqTick s = .next (s.setEnc (caqEmit s.enc.cstage s.enc)) := exec_caqTick_loaded hlive hl
  rw [hup] at hfirst ⊢
  exact repeatExec_two hfirst (exec_caqTick_loaded (s := s.setEnc _) hlive hl) rfl

theorem caqBitHalves_eq (bit : Bool) :
    caqBitHalves bit = [up (caqKind bit), up (caqKind bit)] ++ [up (caqKind bit), up (caqKind bit)] := by
  cases bit <;> rfl

/-- A bit from its first half on: four halves, the last of which advances. -/
theorem caqTick_bit {s : State} {st : BitVec 3} (hst : s.enc.cstage = st) (hlive : st.toNat < 4)
    (hl : s.enc.loaded = true) (hp : s.enc.phalf = false) (hc : s.enc.ccyc = false) :
    repeatExec .caqTick 4 s = .next (caqBitHalves (caqBit st s.enc), s.setEnc (caqAdvance st
      { s.enc with period := up (caqKind (caqBit st s.enc)), phalf := false, ccyc := false })) := by
  have hrun1 := caqTick_two hst hlive hl hp
  rw [caqEmit_first_cycle st hp hc] at hrun1
  have hrun2 := caqTick_two (s := s.setEnc { s.enc with
    period := up (caqKind (caqBit st s.enc)), phalf := false, ccyc := true }) hst hlive hl rfl
  rw [caqEmit_second_cycle st rfl rfl, caqAdvance_period] at hrun2
  rw [caqBitHalves_eq]
  exact repeatExec_append hrun1 hrun2

/-! ### One byte (44_caq.md R215) -/

/-- The data bits from bit `j` on, to the first stop bit. -/
theorem caqTick_data_bits (j : Nat) : ∀ {s : State}, s.enc.cstage = 1 → s.enc.loaded = true → s.enc.phalf = false →
    s.enc.ccyc = false → j < 8 → s.enc.bidx = BitVec.ofNat 3 j →
    repeatExec .caqTick (4 * (j + 1)) s = .next ((lowBits s.enc.cur j).flatMap caqBitHalves, s.setEnc { s.enc with
      period := up (caqKind (s.enc.cur.getLsbD 0)), phalf := false, ccyc := false, bidx := 0, cstage := 2 }) := by
  induction j with
  | zero =>
    intro s hst hl hp hc _ hb
    have hbit : caqBit 1 s.enc = s.enc.cur.getLsbD 0 := by
      rw [show caqBit 1 s.enc = s.enc.cur.getLsbD s.enc.bidx.toNat from rfl, hb]; rfl
    have hlast : s.enc.bidx = 0 := hb
    have hrun := caqTick_bit hst (by decide) hl hp hc
    rw [hbit] at hrun
    rw [lowBits, List.flatMap_singleton, hrun, ← hlast]
    exact congrArg (fun e => Host.Outcome.next (caqBitHalves (s.enc.cur.getLsbD 0), s.setEnc e))
      (caqAdvance_dataBits_last hlast)
  | succ j ih =>
    intro s hst hl hp hc hj hb
    have hbit : caqBit 1 s.enc = s.enc.cur.getLsbD (j + 1) := by
      rw [show caqBit 1 s.enc = s.enc.cur.getLsbD s.enc.bidx.toNat from rfl, hb, BitVec.toNat_ofNat,
        Nat.mod_eq_of_lt hj]
    have hj' : j < 7 := Nat.lt_of_succ_lt_succ hj
    have hmore : s.enc.bidx ≠ 0 := by rw [hb]; interval_cases j <;> decide
    have hpred : s.enc.bidx - 1 = BitVec.ofNat 3 j := by rw [hb]; interval_cases j <;> rfl
    have hrun := caqTick_bit hst (by decide) hl hp hc
    rw [caqAdvance_dataBits (e := { s.enc with period := _, phalf := false, ccyc := false }) hmore, hbit] at hrun
    rw [show 4 * (j + 1 + 1) = 4 + 4 * (j + 1) by ring, lowBits, List.flatMap_cons]
    refine repeatExec_append hrun ?_
    exact ih (s := s.setEnc { s.enc with
        period := up (caqKind (s.enc.cur.getLsbD (j + 1))), phalf := false, ccyc := false, bidx := s.enc.bidx - 1 })
      hst hl rfl rfl (by omega) hpred

theorem caqFrameHalves_eq (b : Byte) :
    caqFrameHalves b =
      caqBitHalves false ++ ((lowBits b 7).flatMap caqBitHalves ++ (caqBitHalves true ++ caqBitHalves true)) := by
  rw [caqFrameHalves, caqBits, lowBits_seven, List.cons_append, List.flatMap_cons, List.flatMap_append]
  rfl

/-- The frame of a byte just loaded. -/
theorem caqTick_frame {s : State} (hst : s.enc.cstage = 0) (hl : s.enc.loaded = true) (hp : s.enc.phalf = false)
    (hc : s.enc.ccyc = false) (hb : s.enc.bidx = 7) :
    repeatExec .caqTick 44 s = .next (caqFrameHalves s.enc.cur, s.setEnc { s.enc with
      period := Config.tMark, phalf := false, ccyc := false, bidx := 0, cstage := 3, loaded := false }) := by
  rw [caqFrameHalves_eq]
  refine repeatExec_append (m := 4) (n := 40) (caqTick_bit hst (by decide) hl hp hc) ?_
  refine repeatExec_append (m := 4 * (7 + 1)) (n := 8) (caqTick_data_bits 7
    (s := s.setEnc { s.enc with period := Config.tSpace, phalf := false, ccyc := false, cstage := 1 })
    rfl hl rfl rfl (by decide) hb) ?_
  refine repeatExec_append (m := 4) (n := 4) (caqTick_bit (st := 2)
    (s := s.setEnc { s.enc with
      period := up (caqKind (s.enc.cur.getLsbD 0)), phalf := false, ccyc := false, bidx := 0, cstage := 2 }) rfl (by decide) hl rfl rfl) ?_
  exact caqTick_bit (st := 3)
    (s := s.setEnc { s.enc with
      period := Config.tMark, phalf := false, ccyc := false, bidx := 0, cstage := 3 }) rfl (by decide) hl rfl rfl

/-- The tick that loads a byte is the first tick of the byte's frame in the state with the byte loaded. -/
theorem exec_caqTick_load {s : State} {b : Byte} {src : Source} (hlive : s.enc.cstage.toNat < 4)
    (hl : s.enc.loaded = false) (hr : s.source.read = (some b, src)) :
    exec .caqTick s = exec .caqTick (((s.setSource src).addEvent (.read (some b))).mapEnc (loadCaqByte b)) := by
  rw [exec_caqTick, runCaqStage, if_pos hlive, caqStageTick_load _ hl hr, exec_caqTick_loaded (by simp; decide) (by simp)]
  rfl

/-- Settles O34. -/
theorem caqByteTakesFortyFourTicks : Obligations.CaqByteTakesFortyFourTicks := by
  intro s b src hlive hl hp hr
  rw [repeatExec_congr (exec_caqTick_load hlive hl hr) 43]
  exact caqTick_frame rfl rfl hp rfl rfl

/-! ### Runs: what holds at each tick -/

theorem repeatExec_completes (i : Instr) (n : Nat) : ∀ s : State, ∃ ps t, repeatExec i n s = .next (ps, t) := by
  induction n with
  | zero => exact fun s => ⟨[], s, rfl⟩
  | succ n ih =>
    intro s
    obtain ⟨t, ht⟩ := exec_completes i s
    obtain ⟨ps, u, hu⟩ := ih t
    exact ⟨_, u, repeatExec_succ ht hu⟩

theorem repeatExec_split {i : Instr} {m n : Nat} {s t : State} {ps : List Period}
    (h : repeatExec i (m + n) s = .next (ps, t)) :
    ∃ qs rs u, repeatExec i m s = .next (qs, u) ∧ repeatExec i n u = .next (rs, t) := by
  obtain ⟨qs, u, hu⟩ := repeatExec_completes i m s
  obtain ⟨rs, v, hv⟩ := repeatExec_completes i n u
  have happ := repeatExec_append hu hv
  rw [h] at happ
  cases happ
  exact ⟨qs, rs, u, hu, hv⟩

/-- What one command keeps a run of it keeps. -/
theorem repeatExec_keeps {i : Instr} {P : State → Prop} (hstep : ∀ {s t}, exec i s = .next t → P s → P t) {n : Nat} :
    ∀ {s t : State} {ps : List Period}, repeatExec i n s = .next (ps, t) → P s → P t := by
  induction n with
  | zero => intro s t ps h hs; cases h; exact hs
  | succ n ih =>
    intro s t ps h hs
    obtain ⟨u, hu⟩ := exec_completes i s
    obtain ⟨qs, v, hv⟩ := repeatExec_completes i n u
    rw [repeatExec_succ hu hv] at h
    cases h
    exact ih hv (hstep hu hs)

/-- In a run whose every command keeps `P` or ends in the closed set `D`, and which is not in `D` at its end, `P` holds
all along. -/
theorem repeatExec_all_along {i : Instr} {P D : State → Prop} (hclosed : ∀ {s t}, exec i s = .next t → D s → D t)
    (hstep : ∀ {s t}, exec i s = .next t → P s → P t ∨ D t) {n : Nat} {s t : State} {ps : List Period}
    (h : repeatExec i n s = .next (ps, t)) (hs : P s) (ht : ¬ D t) {k : Nat} (hk : k ≤ n) :
    ∃ qs u, repeatExec i k s = .next (qs, u) ∧ P u := by
  obtain ⟨m, rfl⟩ := Nat.exists_eq_add_of_le hk
  obtain ⟨qs, rs, u, hu, hrest⟩ := repeatExec_split h
  have hPD : P u ∨ D u := repeatExec_keeps (P := fun v => P v ∨ D v)
    (fun hexec hv => hv.elim (hstep hexec) fun hD => .inr (hclosed hexec hD)) hu (.inl hs)
  exact ⟨qs, u, hu, hPD.resolve_right fun hD => ht (repeatExec_keeps hclosed hrest hD)⟩

/-! ### A whole session (45_session.md R239) -/

/-- A CAQ session goes on with the override in force: `BAUD` forced, the host's rate `v` saved. -/
def CaqPlaying (v : Baud) (s : State) : Prop :=
  s.baud = 600 ∧ s.enc.ovr = true ∧ s.enc.task = 1 ∧ s.enc.savedBaud = v ∧ s.enc.blockId = 2

theorem exec_caqTick_done {s t : State} (h : exec .caqTick s = .next t) (hs : 4 ≤ s.enc.cstage.toNat) :
    4 ≤ t.enc.cstage.toNat := by
  obtain ⟨hlive, _⟩ | ⟨_, rfl⟩ := exec_caqTick_cases h
  · omega
  · exact hs

/-- A tick changes none of it but by ending the session. -/
theorem exec_caqTick_playing {v : Baud} {s t : State} (h : exec .caqTick s = .next t) (hs : CaqPlaying v s) :
    CaqPlaying v t ∨ 4 ≤ t.enc.cstage.toNat := by
  obtain ⟨_, rfl⟩ | ⟨hdone, rfl⟩ := exec_caqTick_cases h
  · rcases caqStageTick_cases s.enc.cstage s with ⟨_, ht⟩ | ⟨_, b, _, ht⟩ | ⟨_, _, ht⟩ <;> rw [ht]
    · exact .inl (by simpa [CaqPlaying] using hs)
    · exact .inl (by simpa [CaqPlaying] using hs)
    · exact .inr (by rw [caqExhausted, enterTerminal_caq_enc]; exact Nat.le_refl 4)
  · exact .inr hdone

/-- A live encoder between two frames, over the source `src`. -/
structure CaqEdge (src : Source) (s : State) : Prop where
  live : s.enc.cstage.toNat < 4
  unloaded : s.enc.loaded = false
  between : s.enc.phalf = false
  source : s.source = src

/-- One frame leads from edge to edge. -/
theorem caqTick_frame_edge {s : State} {b : Byte} {src src' : Source} (hs : CaqEdge src s)
    (hr : src.read = (some b, src')) :
    ∃ t, repeatExec .caqTick 44 s = .next (caqFrameHalves b, t) ∧ CaqEdge src' t := by
  rw [← hs.source] at hr
  have hlive : (3 : BitVec 3).toNat < 4 := by decide
  exact ⟨_, caqByteTakesFortyFourTicks s b src' hs.live hs.unloaded hs.between hr, hlive, rfl, rfl, rfl⟩

/-- The frames of the bytes left in the image. -/
theorem caqTick_bytes {img : List Byte} {ok : Bool} (n : Nat) : ∀ {p : Nat} {s : State},
    CaqEdge (.image img p ok) s → p + n = img.length →
    ∃ t, repeatExec .caqTick (44 * n) s = .next (caqTransmission (img.drop p), t) ∧
      CaqEdge (.image img img.length ok) t := by
  induction n with
  | zero =>
    rintro p s hs rfl
    exact ⟨s, by rw [List.drop_length]; rfl, hs⟩
  | succ n ih =>
    intro p s hs hn
    have hlt : p < img.length := by omega
    obtain ⟨u, hframe, hu⟩ := caqTick_frame_edge hs (read_image_lt hlt)
    obtain ⟨t, hrest, ht⟩ := ih hu (by omega)
    refine ⟨t, ?_, ht⟩
    rw [show 44 * (n + 1) = 44 + 44 * n by ring, List.drop_eq_getElem_cons hlt, caqTransmission, List.flatMap_cons]
    exact repeatExec_append hframe hrest

/-- The tick that finds the source exhausted ends the session and gives the host its rate back. -/
theorem exec_caqTick_last {img : List Byte} {ok : Bool} {v : Baud} {s : State}
    (hedge : CaqEdge (.image img img.length ok) s) (hplay : CaqPlaying v s) :
    ∃ t, exec .caqTick s = .next t ∧ t.enc.period = 0 ∧ t.enc.cstage = 4 ∧ t.enc.task = 2 ∧ t.enc.blockId = 2 ∧
      t.enc.ovr = false ∧ t.baud = v ∧ t.source = .image img img.length ok := by
  obtain ⟨_, hovr, _, hsaved, hblock⟩ := hplay
  have hread : s.source.read = (none, .image img img.length ok) := by rw [hedge.source, read_image_ge le_rfl]
  have hexec := (caqExhaustionCompletesTheSession s _ _ (.inr ⟨rfl, hedge.live⟩) hedge.unloaded hread).1 hovr
  exact ⟨_, hexec, rfl, rfl, rfl, hblock, rfl, hsaved, rfl⟩

/-- CAQ_INIT leaves the encoder before its first frame, with the rate to restore saved. -/
theorem exec_caqInit_start (s : State) :
    ∃ t, exec .caqInit s = .next t ∧ CaqEdge s.source t ∧
      CaqPlaying (if s.enc.ovr then s.enc.savedBaud else s.baud) t := by
  refine ⟨_, exec_caqInit s, ?_⟩
  have hlive : (0 : BitVec 3).toNat < 4 := by decide
  cases hovr : s.enc.ovr with
  | true => rw [saveBaud_of_ovr hovr]; exact ⟨⟨hlive, rfl, rfl, rfl⟩, rfl, hovr, rfl, rfl, rfl⟩
  | false => rw [saveBaud_of_not_ovr hovr]; exact ⟨⟨hlive, rfl, rfl, rfl⟩, rfl, rfl, rfl, rfl, rfl⟩

/-- Settles O35: the frames of the bytes, then the tick that finds no more. -/
theorem caqSessionSendsEveryByteAndRestoresBaud : Obligations.CaqSessionSendsEveryByteAndRestoresBaud := by
  intro s img p seekOk hsrc hp
  obtain ⟨s0, hinit, hedge, hplay⟩ := exec_caqInit_start s
  rw [hsrc] at hedge
  obtain ⟨t, hbytes, ht⟩ := caqTick_bytes (img.length - p) hedge (by omega)
  have hlive : ¬ 4 ≤ t.enc.cstage.toNat := Nat.not_le.2 ht.live
  have halong {k : Nat} (hk : k ≤ 44 * (img.length - p)) :=
    repeatExec_all_along exec_caqTick_done exec_caqTick_playing hbytes hplay hlive hk
  obtain ⟨_, _, hsame, hplay_t⟩ := halong le_rfl
  rw [hbytes] at hsame
  cases hsame
  obtain ⟨u, hlast, hperiod, hstage, htask, hblock, hovr, hbaud, hsource⟩ := exec_caqTick_last ht hplay_t
  refine ⟨s0, u, hinit, hplay.1, ?_, hstage, htask, hblock, hovr, hbaud, hsource, fun k hk => ?_⟩
  · exact hperiod ▸ repeatExec_append hbytes (repeatExec_one hlast)
  · obtain ⟨ps, v, hv, hbaud, hovr, htask, _⟩ := halong hk
    exact ⟨ps, v, hv, hbaud, hovr, htask⟩

end Sys2Proof.Machine
end

section
/-! MZF_INIT (43_mzf.md R160) for every byte source: the READs of the header as one function of the source, and the three
ways the command can end. -/

namespace Sys2Proof.Machine

/-! ### A run of READs -/

/-- The bytes of at most `n` READs, which stop at the first that fails, and the source afterwards. -/
def Source.take : Nat → Source → List Byte × Source
  | 0, src => ([], src)
  | n + 1, src =>
    match src.read with
    | (none, src') => ([], src')
    | (some b, src') => (b :: (src'.take n).1, (src'.take n).2)

theorem Source.take_read {n : Nat} {src src' : Source} {b : Byte} (h : src.read = (some b, src')) :
    src.take (n + 1) = (b :: (src'.take n).1, (src'.take n).2) := by
  rw [Source.take, h]

theorem Source.take_fail {n : Nat} {src src' : Source} (h : src.read = (none, src')) :
    src.take (n + 1) = ([], src') := by
  rw [Source.take, h]

theorem Source.length_take_le (n : Nat) : ∀ src : Source, (src.take n).1.length ≤ n := by
  induction n with
  | zero => exact fun _ => Nat.le_refl 0
  | succ n ih =>
    intro src
    match hr : src.read with
    | (none, src') => rw [take_fail hr]; exact Nat.zero_le _
    | (some b, src') => rw [take_read hr]; exact Nat.succ_le_succ (ih src')

/-- The reference source gives what the image holds from its position on. -/
theorem Source.take_image {img : List Byte} {ok : Bool} (n : Nat) : ∀ {p : Nat}, p ≤ img.length →
    (Source.image img p ok).take n = ((img.drop p).take n, .image img (min (p + n) img.length) ok) := by
  induction n with
  | zero => intro p hp; rw [Source.take, List.take_zero, Nat.add_zero, Nat.min_eq_left hp]
  | succ n ih =>
    intro p hp
    obtain hlt | rfl := Nat.lt_or_eq_of_le hp
    · have hrest := ih (p := p + 1) hlt
      rw [show p + 1 + n = p + (n + 1) by omega] at hrest
      rw [take_read (read_image_lt hlt), hrest, List.drop_eq_getElem_cons hlt, List.take_succ_cons]
    · rw [take_fail (read_image_ge le_rfl), List.drop_length, List.take_nil,
        Nat.min_eq_right (Nat.le_add_right _ _)]

/-- What the READs answered, newest first: the bytes, and one failure if they are fewer than asked for. -/
def readAnswers (n : Nat) (bs : List Byte) : List (Option Byte) :=
  (if bs.length < n then [none] else []) ++ (bs.map some).reverse

theorem length_readAnswers_le {n : Nat} {bs : List Byte} (h : bs.length ≤ n) : (readAnswers n bs).length ≤ n := by
  unfold readAnswers
  split <;> simp <;> omega

theorem tail_readAnswers_ne_none (n : Nat) (bs : List Byte) : ∀ a ∈ (readAnswers n bs).tail, a ≠ none := by
  have hbytes : ∀ a ∈ (bs.map some).reverse, a ≠ none := by simp
  unfold readAnswers
  split
  · exact hbytes
  · exact fun a ha => hbytes a (List.mem_of_mem_tail ha)

theorem readAnswers_full {n : Nat} {bs : List Byte} (h : bs.length = n) : readAnswers n bs = (bs.map some).reverse := by
  rw [readAnswers, if_neg (by omega)]; rfl

theorem readAnswers_short {n : Nat} {bs : List Byte} (h : bs.length < n) :
    readAnswers n bs = none :: (bs.map some).reverse := by
  rw [readAnswers, if_pos h]; rfl

theorem readAnswers_cons (n : Nat) (b : Byte) (bs : List Byte) :
    readAnswers (n + 1) (b :: bs) = readAnswers n bs ++ [some b] := by
  simp only [readAnswers, List.length_cons, Nat.add_lt_add_iff_right, List.map_cons, List.reverse_cons, List.append_assoc]

/-! ### The header filled from a list of bytes -/

/-- The cells with `bs` written from address `i` on. -/
def Memory.writeFrom : Nat → List Byte → Memory → Memory
  | _, [], m => m
  | i, b :: bs, m => Memory.writeFrom (i + 1) bs (Memory.insert m i b)

theorem lookup_writeFrom (bs : List Byte) : ∀ (i : Nat) (m : Memory) (j : Nat),
    Memory.lookup (Memory.writeFrom i bs m) j =
      if i ≤ j ∧ j < i + bs.length then bs[j - i]? else Memory.lookup m j := by
  induction bs with
  | nil => intro i m j; rw [Memory.writeFrom, if_neg (by simp)]
  | cons b bs ih =>
    intro i m j
    rw [Memory.writeFrom, ih, lookup_insert, List.length_cons]
    by_cases hij : j = i
    · rw [if_neg (by omega), if_pos hij, if_pos (by omega), hij, Nat.sub_self]; rfl
    · by_cases hin : i + 1 ≤ j ∧ j < i + 1 + bs.length
      · obtain ⟨k, rfl⟩ := Nat.exists_eq_add_of_le hin.1
        rw [if_pos hin, if_pos (by omega), Nat.add_sub_cancel_left, show i + 1 + k - i = k + 1 by omega]; rfl
      · rw [if_neg hin, if_neg hij, if_neg (by omega)]

theorem wf_writeFrom (bs : List Byte) : ∀ {i : Nat} {m : Memory}, i + bs.length ≤ 128 → Memory.wf m = true →
    Memory.wf (Memory.writeFrom i bs m) = true := by
  induction bs with
  | nil => exact fun _ h => h
  | cons b bs ih =>
    intro i m hi hm
    rw [List.length_cons] at hi
    exact ih (by omega) (wf_insert hm ⟨i, by simp only [Config.nHdr]; omega⟩ b)

/-- `readHeader` in one equation: the bytes it got are written from `i` on, and it succeeded if they are `n`. -/
theorem readHeader_eq (n : Nat) : ∀ {i : Nat} (s : State), i + n ≤ 128 →
    readHeader n i s = (decide ((s.source.take n).1.length = n), { s with
      enc := { s.enc with hdr := Memory.writeFrom i (s.source.take n).1 s.enc.hdr }
      source := (s.source.take n).2
      trace := (readAnswers n (s.source.take n).1).map Event.read ++ s.trace }) := by
  induction n with
  | zero => intro i s _; rfl
  | succ n ih =>
    intro i s hi
    match hr : s.source.read with
    | (none, src) => simp only [readHeader, srcRead_eq hr, Source.take_fail hr]; rfl
    | (some b, src) =>
      have haddr : (Fin.ofNat Config.nHdr i).val = i := Nat.mod_eq_of_lt (by simp only [Config.nHdr]; omega)
      simp only [readHeader, srcRead_eq hr, Source.take_read hr]
      rw [ih _ (by omega)]
      simp only [memWrite_enc, memWrite_source, memWrite_trace, haddr, readAnswers_cons, List.length_cons,
        Nat.add_right_cancel_iff, List.map_append, List.append_assoc]
      rfl

/-! ### The three ways MZF_INIT ends -/

/-- The registers MZF_INIT wrote, and a SEEK to 0 that answered `ok`. -/
def headerSought (ok : Bool) (s : State) : State :=
  { s with
    enc := mzfInitRegisters s.enc
    source := (s.source.seek 0).2
    trace := .seek 0 ok :: s.trace }

/-- After the SEEK, the header filled with the bytes `bs` of READs that left the source `src`. -/
def headerRead (bs : List Byte) (src : Source) (s : State) : State :=
  { s with
    enc := { mzfInitRegisters s.enc with hdr := Memory.writeFrom 0 bs s.enc.hdr }
    source := src
    trace := (readAnswers 128 bs).map Event.read ++ .seek 0 true :: s.trace }

theorem exec_mzfInit_of_seek_fail {s : State} (h : (s.source.seek 0).1 = false) :
    exec .mzfInit s = .next (mzfInitFail (headerSought false s)) := by
  rw [headerSought, ← h]
  obtain ⟨_, hs⟩ | ⟨htrue, _⟩ := execMzfInit_cases s
  · exact hs
  · exact absurd (h.symm.trans htrue) (by decide)

theorem exec_mzfInit_of_seek {s : State} {bs : List Byte} {src : Source} (h : (s.source.seek 0).1 = true)
    (hbs : (s.source.seek 0).2.take 128 = (bs, src)) :
    exec .mzfInit s = .next (if bs.length = 128 then mzfInitSucceed (headerRead bs src s)
      else mzfInitFail (headerRead bs src s)) := by
  have hsought : (srcSeek Config.mzfHdrPos (s.mapEnc mzfInitRegisters)).2 = headerSought true s := by
    rw [headerSought, ← h]; rfl
  have hread : readHeader Config.nHdr 0 (headerSought true s) = (decide (bs.length = 128), headerRead bs src s) := by
    rw [readHeader_eq _ _ le_rfl, show (headerSought true s).source.take Config.nHdr = (bs, src) from hbs]; rfl
  obtain ⟨hfalse, _⟩ | ⟨_, ok, s', hread', hs⟩ := execMzfInit_cases s
  · exact absurd (h.symm.trans hfalse) (by decide)
  · rw [hsought, hread] at hread'
    cases hread'
    rw [show exec .mzfInit s = execMzfInit s from rfl, hs]
    by_cases hfull : bs.length = 128 <;> simp [hfull]

/-- Everything MZF_INIT can do. -/
theorem exec_mzfInit_cases {s t : State} (h : exec .mzfInit s = .next t) :
    ((s.source.seek 0).1 = false ∧ t = mzfInitFail (headerSought false s)) ∨
    ∃ bs src, (s.source.seek 0).1 = true ∧ (s.source.seek 0).2.take 128 = (bs, src) ∧
      ((bs.length < 128 ∧ t = mzfInitFail (headerRead bs src s)) ∨
       (bs.length = 128 ∧ t = mzfInitSucceed (headerRead bs src s))) := by
  cases hseek : (s.source.seek 0).1 with
  | false =>
    rw [exec_mzfInit_of_seek_fail hseek] at h
    cases h
    exact .inl ⟨rfl, rfl⟩
  | true =>
    have hle := Source.length_take_le 128 (s.source.seek 0).2
    rw [exec_mzfInit_of_seek hseek rfl] at h
    cases h
    refine .inr ⟨_, _, rfl, rfl, ?_⟩
    obtain hlt | heq := Nat.lt_or_eq_of_le hle
    · exact .inl ⟨hlt, if_neg hlt.ne⟩
    · exact .inr ⟨heq, if_pos heq⟩

/-! ### What a header that was read holds -/

theorem lookup_headerRead {bs : List Byte} (hbs : bs.length = 128) (src : Source) (s : State) (i : Fin Config.nHdr) :
    Memory.lookup (headerRead bs src s).enc.hdr i.val = bs[i.val]? := by
  have hi : i.val < 128 := i.isLt
  rw [headerRead, lookup_writeFrom, if_pos (by omega), Nat.sub_zero]

theorem memRead_headerRead {bs : List Byte} (hbs : bs.length = 128) (src : Source) (s : State) (i : Fin Config.nHdr) :
    some (memRead (headerRead bs src s) i) = bs[i.val]? := by
  have hi : i.val < bs.length := hbs ▸ i.isLt
  rw [memRead, lookup_headerRead hbs, List.getElem?_eq_getElem hi]
  rfl

theorem headerBytes_eq {t : State} {bs : List Byte} (hbs : bs.length = 128)
    (h : ∀ i : Fin Config.nHdr, some (memRead t i) = bs[i.val]?) : headerBytes t = bs := by
  refine List.ext_getElem? fun j => ?_
  by_cases hj : j < 128
  · have haddr : (Fin.ofNat Config.nHdr j).val = j := Nat.mod_eq_of_lt hj
    have hread := h (Fin.ofNat Config.nHdr j)
    rw [haddr] at hread
    rw [← hread, headerBytes, List.getElem?_map, List.getElem?_range hj]
    rfl
  · have hlen : (headerBytes t).length = 128 := by rw [headerBytes, List.length_map, List.length_range]
    rw [List.getElem?_eq_none (by omega), List.getElem?_eq_none (by omega)]

/-- `BLEN` of a header: the byte at 18 is the low one. -/
theorem bodyLength_eq {t : State} {bs : List Byte} (h : ∀ i : Fin Config.nHdr, some (memRead t i) = bs[i.val]?) :
    bodyLength t = bs.getD 19 0 ++ bs.getD 18 0 := by
  have h18 : bs[18]? = some (memRead t 18) := (h 18).symm
  have h19 : bs[19]? = some (memRead t 19) := (h 19).symm
  rw [List.getD_eq_getElem?_getD, List.getD_eq_getElem?_getD, h18, h19]
  rfl

/-! ### The reference source -/

theorem seek_image (img : List Byte) (p : Nat) : (Source.image img p true).seek 0 = (true, .image img 0 true) := by
  simp [Source.seek]

theorem exec_mzfInit_of_image {s : State} {img : List Byte} {p : Nat} (h : s.source = .image img p true)
    (hlen : 128 ≤ img.length) :
    exec .mzfInit s = .next (mzfInitSucceed (headerRead (img.take 128) (.image img 128 true) s)) := by
  have hseek := seek_image img p
  rw [← h] at hseek
  have htake : (s.source.seek 0).2.take 128 = (img.take 128, .image img 128 true) := by
    rw [hseek, Source.take_image 128 (Nat.zero_le _), List.drop_zero, Nat.zero_add, Nat.min_eq_left hlen]
  rw [exec_mzfInit_of_seek (by rw [hseek]) htake, if_pos (List.length_take_of_le hlen)]

/-- Settles O18: the bytes read are the first 128 of the image. -/
theorem mzfInitReadsTheHeader : Obligations.MzfInitReadsTheHeader := by
  intro s img p hsrc hlen
  have hbs : (img.take 128).length = 128 := List.length_take_of_le hlen
  have hread := memRead_headerRead hbs (.image img 128 true) s
  have htake {j : Nat} (hj : j < 128) : (img.take 128)[j]? = img[j]? := List.getElem?_take_of_lt hj
  have hblen : bodyLength (headerRead (img.take 128) (.image img 128 true) s) = img.getD 19 0 ++ img.getD 18 0 := by
    rw [bodyLength_eq hread]
    simp only [List.getD_eq_getElem?_getD, htake (show 19 < 128 by decide), htake (show 18 < 128 by decide)]
  refine ⟨_, exec_mzfInit_of_image hsrc hlen, fun i => (hread i).trans (htake i.isLt), ?_, rfl, rfl, rfl, ?_⟩
  · rw [mzfInitSucceed, ckHdr, headerBytes_eq hbs hread, hblen]; rfl
  · rw [mzfInitSucceed, mapEnc_trace, headerRead, readAnswers_full hbs, List.map_reverse, List.map_map]; rfl

/-- Settles O19. -/
theorem mzfInitSeekFailureEndsTheSession : Obligations.MzfInitSeekFailureEndsTheSession :=
  fun _ h => ⟨_, exec_mzfInit_of_seek_fail h, rfl, rfl, rfl, rfl, rfl⟩

/-- Settles O20: the bytes read are the whole image. -/
theorem mzfInitShortReadEndsTheSession : Obligations.MzfInitShortReadEndsTheSession := by
  intro s img p hsrc hlen
  have hseek := seek_image img p
  rw [← hsrc] at hseek
  have htake : (s.source.seek 0).2.take 128 = (img, .image img img.length true) := by
    rw [hseek, Source.take_image 128 (Nat.zero_le _), List.drop_zero, Nat.zero_add, Nat.min_eq_right hlen.le,
      List.take_of_length_le hlen.le]
  have hexec := exec_mzfInit_of_seek (by rw [hseek]) htake
  rw [if_neg hlen.ne] at hexec
  refine ⟨_, hexec, rfl, rfl, rfl, rfl, ?_⟩
  show _ :: ((readAnswers 128 img).map Event.read ++ _) = _
  rw [readAnswers_short hlen, List.map_cons, List.map_reverse, List.map_map]
  rfl

/-- Settles O42: the answers to the READs are those of `readAnswers`. -/
theorem mzfInitWritesOnlyItsRegisters : Obligations.MzfInitWritesOnlyItsRegisters := by
  intro s t h
  obtain ⟨_, rfl⟩ | ⟨bs, src, _, hbs, ⟨_, rfl⟩ | ⟨_, rfl⟩⟩ := exec_mzfInit_cases h
  · exact ⟨rfl, rfl, rfl, rfl, rfl, rfl, rfl, false, [], [.raised .storageAccessFailure], rfl, Nat.zero_le _, fun _ => rfl,
      by simp, .inr ⟨rfl, rfl, rfl⟩⟩
  all_goals
    have hlen : (readAnswers 128 bs).length ≤ 128 :=
      length_readAnswers_le ((congrArg (fun r => r.1.length) hbs) ▸ Source.length_take_le 128 _)
  · exact ⟨rfl, rfl, rfl, rfl, rfl, rfl, rfl, true, readAnswers 128 bs, [.raised .storageAccessFailure], rfl, hlen,
      fun hok => absurd hok (by decide), tail_readAnswers_ne_none 128 bs, .inr ⟨rfl, rfl, rfl⟩⟩
  · exact ⟨rfl, rfl, rfl, rfl, rfl, rfl, rfl, true, readAnswers 128 bs, [], rfl, hlen,
      fun hok => absurd hok (by decide), tail_readAnswers_ne_none 128 bs, .inl ⟨rfl, rfl, rfl⟩⟩

end Sys2Proof.Machine
end

section
/-! Frames (10_state.md R52): which registers a tick or a stage row leaves alone, and who touches `BAUD`. -/

namespace Sys2Proof.Machine

/-! ### The rows as instructions -/

/-- An instruction of the MZF stage format runs a row of `MZF_TABLE`; only MZF_TICK.BODY1 runs the body's. An operand
that fits no code belongs to a reserved row, which is terminal. -/
theorem exec_mzfStage_format {j : Instr} (h : (encode j).1 = .mzfStage) :
    ∃ c : BitVec 5, (c = 12 → j = .mzfBody1) ∧ ∀ s, exec j s = .next (runMzfRow (mzfTable c) s) := by
  by_cases hwf : j.wf = true
  · have hdec := decodeEncodeAgree j hwf
    rw [h] at hdec
    have hlt : (encode j).2 < 32 := (decode_eq_ok_iff.1 hdec).1
    have hc : (BitVec.ofNat 5 (encode j).2).toNat = (encode j).2 := Nat.mod_eq_of_lt hlt
    rw [← hc] at hdec
    refine ⟨_, fun h12 => ?_, exec_of_decode_mzfStage hdec⟩
    rw [h12] at hdec
    cases hdec
    rfl
  · have hterm : (16 : BitVec 5) ≠ 12 := by decide
    cases j with
    | mzfReserved1001x x => exact ⟨16, fun h12 => absurd h12 hterm, fun _ => rfl⟩
    | mzfReserved101xx x => exact ⟨16, fun h12 => absurd h12 hterm, fun _ => rfl⟩
    | mzfReserved11xxx x => exact ⟨16, fun h12 => absurd h12 hterm, fun _ => rfl⟩
    | reservedCmd x | caqReserved11x x => cases h
    | _ => exact absurd rfl hwf

/-- An instruction of the CAQ stage format runs a stage. -/
theorem exec_caqStage_format {j : Instr} (h : (encode j).1 = .caqStage) :
    ∃ c : BitVec 3, ∀ s, exec j s = .next (runCaqStage c s) := by
  by_cases hwf : j.wf = true
  · have hdec := decodeEncodeAgree j hwf
    rw [h] at hdec
    have hlt : (encode j).2 < 8 := (decode_eq_ok_iff.1 hdec).1
    have hc : (BitVec.ofNat 3 (encode j).2).toNat = (encode j).2 := Nat.mod_eq_of_lt hlt
    rw [← hc] at hdec
    exact ⟨_, exec_of_decode_caqStage hdec⟩
  · cases j with
    | caqReserved11x x => exact ⟨4, fun _ => rfl⟩
    | reservedCmd x | mzfReserved1001x x | mzfReserved101xx x | mzfReserved11xxx x => cases h
    | _ => exact absurd rfl hwf

theorem pulseKind_format {j : Instr} (h : (encode j).1 = .pulseKind) : ∃ k, j = pulseInstr k := by
  cases j with
  | pulseShort => exact ⟨.short, rfl⟩
  | pulseLong => exact ⟨.long, rfl⟩
  | pulseSpace => exact ⟨.space, rfl⟩
  | pulseMark => exact ⟨.mark, rfl⟩
  | _ => cases h

/-! ### MZF -/

/-- What the MZF stages leave as it was: the registers outside their row of the write matrix, the header cells, and
everything outside ENC but the byte source and the trace. -/
structure MzfFrame (s t : State) : Prop where
  cstage : t.enc.cstage = s.enc.cstage
  bidx : t.enc.bidx = s.enc.bidx
  ccyc : t.enc.ccyc = s.enc.ccyc
  hcs : t.enc.hcs = s.enc.hcs
  blen : t.enc.blen = s.enc.blen
  savedBaud : t.enc.savedBaud = s.enc.savedBaud
  ovr : t.enc.ovr = s.enc.ovr
  blockId : t.enc.blockId = s.enc.blockId
  hdr : t.enc.hdr = s.enc.hdr
  baud : t.baud = s.baud
  inputs : t.inputs = s.inputs
  freeCtr : t.freeCtr = s.freeCtr

/-- An operation on the registers of the MZF stages alone, from a state with the registers of `s`. -/
theorem MzfFrame.of_mapEnc {s s' : State} {f : Enc → Enc} (henc : s'.enc = s.enc) (hbaud : s'.baud = s.baud)
    (hinputs : s'.inputs = s.inputs) (hfree : s'.freeCtr = s.freeCtr)
    (hf : (f s.enc).cstage = s.enc.cstage ∧ (f s.enc).bidx = s.enc.bidx ∧ (f s.enc).ccyc = s.enc.ccyc ∧
      (f s.enc).hcs = s.enc.hcs ∧ (f s.enc).blen = s.enc.blen ∧ (f s.enc).savedBaud = s.enc.savedBaud ∧
      (f s.enc).ovr = s.enc.ovr ∧ (f s.enc).blockId = s.enc.blockId ∧ (f s.enc).hdr = s.enc.hdr) :
    MzfFrame s (s'.mapEnc f) := by
  obtain ⟨h1, h2, h3, h4, h5, h6, h7, h8, h9⟩ := hf
  constructor <;>
    simp only [mapEnc_enc, mapEnc_baud, mapEnc_inputs, mapEnc_freeCtr, henc, h1, h2, h3, h4, h5, h6, h7, h8, h9, hbaud,
      hinputs, hfree]

theorem byteStage_frame (src : ByteSource) (next : BitVec 5) (s : State) : MzfFrame s (byteStage src next s) := by
  rcases byteStage_cases src next s with ⟨_, hs⟩ | ⟨_, b, s', hn, hs⟩ | ⟨_, s', hn, hs⟩ <;> rw [hs]
  · exact .of_mapEnc rfl rfl rfl rfl (by simp)
  all_goals
    obtain ⟨henc, hbaud, hinputs, hfree, _⟩ := nextByte_frame hn
    exact .of_mapEnc henc hbaud hinputs hfree (by simp)

theorem runMzfRow_frame (row : StageRow) (s : State) : MzfFrame s (runMzfRow row s) := by
  cases row with
  | pulses k n next => exact .of_mapEnc rfl rfl rfl rfl (by simp)
  | bytes src next => exact byteStage_frame src next s
  | terminal => exact .of_mapEnc rfl rfl rfl rfl (by simp)

theorem mzfTick_frame_regs {s t : State} (h : exec .mzfTick s = .next t) : MzfFrame s t := by
  rw [exec_mzfTick] at h; cases h; exact runMzfRow_frame _ s

/-- Every row but the body's makes no request. -/
theorem runMzfRow_source {row : StageRow} (hrow : ∀ next, row ≠ .bytes .body next) (s : State) :
    (runMzfRow row s).source = s.source ∧ (runMzfRow row s).trace = s.trace := by
  cases row with
  | pulses k n next => exact ⟨rfl, rfl⟩
  | terminal => exact ⟨rfl, rfl⟩
  | bytes src next =>
    have hsrc : src ≠ .body := by rintro rfl; exact hrow next rfl
    rw [runMzfRow]
    rcases byteStage_cases src next s with ⟨_, hs⟩ | ⟨_, b, s', hn, hs⟩ | ⟨_, s', hn, hs⟩ <;> rw [hs]
    · exact ⟨rfl, rfl⟩
    all_goals
      obtain rfl : s' = s := (nextByte_frame hn).2.2.2.2 hsrc
      exact ⟨rfl, rfl⟩

theorem mzfTable_body {c next : BitVec 5} (h : mzfTable c = .bytes .body next) : c = 12 := by
  revert c; decide +revert

/-- Settles O40: the frame of a row, and its requests by whether it is the body's. -/
theorem mzfTicksWriteOnlyTheirRegisters : Obligations.MzfTicksWriteOnlyTheirRegisters := by
  intro s t j hj h
  obtain ⟨c, hbody, rfl⟩ : ∃ c, (c = 12 → j = .mzfBody1 ∨ (j = .mzfTick ∧ s.enc.mstage = 12)) ∧
      t = runMzfRow (mzfTable c) s := by
    obtain rfl | hfmt := hj
    · rw [exec_mzfTick] at h
      cases h
      exact ⟨_, fun h12 => .inr ⟨rfl, h12⟩, rfl⟩
    · obtain ⟨c, h12, hexec⟩ := exec_mzfStage_format hfmt
      rw [hexec] at h
      cases h
      exact ⟨c, fun hc => .inl (h12 hc), rfl⟩
  have hf := runMzfRow_frame (mzfTable c) s
  refine ⟨hf.cstage, hf.bidx, hf.ccyc, hf.hcs, hf.blen, hf.savedBaud, hf.ovr, hf.blockId, hf.baud, hf.inputs,
    memRead_congr hf.hdr hf.freeCtr, ?_⟩
  by_cases h12 : c = 12
  · exact .inl (hbody h12)
  · exact .inr (runMzfRow_source (fun next hrow => h12 (mzfTable_body hrow)) s)

/-! ### CAQ -/

/-- What the CAQ stages leave as it was: the registers outside their row of the write matrix, the header cells, the
host's inputs, and `BAUD` but for its restore. -/
structure CaqFrame (s t : State) : Prop where
  mstage : t.enc.mstage = s.enc.mstage
  lead : t.enc.lead = s.enc.lead
  bmask : t.enc.bmask = s.enc.bmask
  hcs : t.enc.hcs = s.enc.hcs
  fcs : t.enc.fcs = s.enc.fcs
  blen : t.enc.blen = s.enc.blen
  cnt : t.enc.cnt = s.enc.cnt
  savedBaud : t.enc.savedBaud = s.enc.savedBaud
  blockId : t.enc.blockId = s.enc.blockId
  hdr : t.enc.hdr = s.enc.hdr
  inputs : t.inputs = s.inputs
  freeCtr : t.freeCtr = s.freeCtr
  settings : (t.baud = s.baud ∧ t.enc.ovr = s.enc.ovr) ∨
    (t.baud = s.enc.savedBaud ∧ s.enc.ovr = true ∧ t.enc.ovr = false)

theorem caqExhausted_frame (s : State) : CaqFrame s (caqExhausted s) := by
  cases hovr : s.enc.ovr with
  | true =>
    rw [caqExhausted_of_ovr hovr]
    exact ⟨rfl, rfl, rfl, rfl, rfl, rfl, rfl, rfl, rfl, rfl, rfl, rfl, .inr ⟨rfl, hovr, rfl⟩⟩
  | false =>
    rw [caqExhausted_of_not_ovr hovr]
    exact ⟨rfl, rfl, rfl, rfl, rfl, rfl, rfl, rfl, rfl, rfl, rfl, rfl, .inl ⟨rfl, rfl⟩⟩

theorem caqStageTick_frame (st : BitVec 3) (s : State) : CaqFrame s (caqStageTick st s) := by
  rcases caqStageTick_cases st s with ⟨_, hs⟩ | ⟨_, b, _, hs⟩ | ⟨_, _, hs⟩ <;> rw [hs]
  · constructor <;> simp
  · constructor <;> simp
  · obtain ⟨h1, h2, h3, h4, h5, h6, h7, h8, h9, h10, h11, h12, h13⟩ := caqExhausted_frame (srcRead s).2
    exact ⟨h1, h2, h3, h4, h5, h6, h7, h8, h9, h10, h11, h12, h13⟩

theorem runCaqStage_frame (c : BitVec 3) (s : State) : CaqFrame s (runCaqStage c s) := by
  unfold runCaqStage
  split
  · exact caqStageTick_frame c s
  · constructor <;> simp

theorem caqTick_frame_regs {s t : State} (h : exec .caqTick s = .next t) : CaqFrame s t := by
  rw [exec_caqTick] at h; cases h; exact runCaqStage_frame _ s

/-- Settles O41. -/
theorem caqTicksWriteOnlyTheirRegisters : Obligations.CaqTicksWriteOnlyTheirRegisters := by
  intro s t j hj h
  have hf : CaqFrame s t := by
    obtain rfl | hfmt := hj
    · exact caqTick_frame_regs h
    · obtain ⟨c, hexec⟩ := exec_caqStage_format hfmt
      rw [hexec] at h
      cases h
      exact runCaqStage_frame c s
  exact ⟨hf.mstage, hf.lead, hf.bmask, hf.hcs, hf.fcs, hf.blen, hf.cnt, hf.savedBaud, hf.blockId, hf.inputs,
    memRead_congr hf.hdr hf.freeCtr, hf.settings.imp_left And.left⟩

/-! ### The settings space (20_memory.md R70) -/

/-- An operation leaves `BAUD`, `SAVED_BAUD` and `OVR` alone. -/
def KeepsSettings (s t : State) : Prop :=
  t.baud = s.baud ∧ t.enc.savedBaud = s.enc.savedBaud ∧ t.enc.ovr = s.enc.ovr

theorem MzfFrame.keepsSettings {s t : State} (h : MzfFrame s t) : KeepsSettings s t := ⟨h.baud, h.savedBaud, h.ovr⟩

theorem exec_mzfInit_keepsSettings {s t : State} (h : exec .mzfInit s = .next t) : KeepsSettings s t := by
  obtain ⟨_, _, _, hsaved, hovr, hbaud, _⟩ := mzfInitWritesOnlyItsRegisters s t h
  exact ⟨hbaud, hsaved, hovr⟩

theorem exec_caqInit_baud {s t : State} (h : exec .caqInit s = .next t) : t.baud = 600 := by
  rw [exec_caqInit] at h; cases h; rfl

theorem exec_abandon_settings {s t : State} (h : exec .abandon s = .next t) :
    t.enc.ovr = false ∧ (t.baud = s.baud ∨ t.baud = s.enc.savedBaud) := by
  cases hovr : s.enc.ovr with
  | true => rw [(abandonRestoresAndDiscards s).1 hovr] at h; cases h; exact ⟨rfl, .inr rfl⟩
  | false => rw [(abandonRestoresAndDiscards s).2 hovr] at h; cases h; exact ⟨hovr, .inl rfl⟩

/-- An instruction keeps the settings, or is one of those that may touch them. -/
theorem exec_keepsSettings {s t : State} {j : Instr} (h : exec j s = .next t) :
    KeepsSettings s t ∨ j = .caqInit ∨ j = .abandon ∨ ((j = .caqTick ∨ (encode j).1 = .caqStage) ∧ CaqFrame s t) := by
  cases hfmt : (encode j).1 with
  | mzfStage =>
    obtain ⟨c, _, hexec⟩ := exec_mzfStage_format hfmt
    rw [hexec] at h; cases h
    exact .inl (runMzfRow_frame _ s).keepsSettings
  | caqStage =>
    obtain ⟨c, hexec⟩ := exec_caqStage_format hfmt
    rw [hexec] at h; cases h
    exact .inr (.inr (.inr ⟨.inr rfl, runCaqStage_frame c s⟩))
  | pulseKind =>
    obtain ⟨k, rfl⟩ := pulseKind_format hfmt
    rw [exec_pulseInstr] at h; cases h
    exact .inl ⟨rfl, pulse_savedBaud k _, pulse_ovr k _⟩
  | cmd =>
    cases j with
    | nop => rw [exec_nop] at h; cases h; exact .inl ⟨rfl, rfl, rfl⟩
    | reservedCmd x => rw [exec_reservedCmd] at h; cases h; exact .inl ⟨rfl, rfl, rfl⟩
    | mzfInit => exact .inl (exec_mzfInit_keepsSettings h)
    | mzfTick => exact .inl (mzfTick_frame_regs h).keepsSettings
    | caqInit => exact .inr (.inl rfl)
    | caqTick => exact .inr (.inr (.inr ⟨.inl rfl, caqTick_frame_regs h⟩))
    | abandon => exact .inr (.inr (.inl rfl))
    | _ => cases hfmt

/-- Settles O43: those that may touch the settings leave in `BAUD` what stood there, 600 or the saved rate. -/
theorem onlyCaqAndAbandonTouchTheBaud : Obligations.OnlyCaqAndAbandonTouchTheBaud := by
  intro s t j h
  obtain hkeep | rfl | rfl | ⟨hcaq, hf⟩ := exec_keepsSettings h
  · exact ⟨fun _ _ _ _ => hkeep, .inl hkeep.1⟩
  · exact ⟨fun hne => absurd rfl hne, .inr (.inl (exec_caqInit_baud h))⟩
  · exact ⟨fun _ _ hne => absurd rfl hne, (exec_abandon_settings h).2.imp_right .inr⟩
  · refine ⟨fun _ htick _ hfmt => (hcaq.elim htick hfmt).elim, ?_⟩
    exact hf.settings.imp And.left fun hrestore => .inr hrestore.1

end Sys2Proof.Machine
end

section
/-! What every step keeps: the forced rate, the header snapshot and the invariant of the registers (10_state.md R50). -/

namespace Sys2Proof.Machine

/-! ### The step, command by command -/

/-- NOP and the reserved codes change nothing; the other command codes are the two INITs, the two ticks and ABANDON. -/
theorem decodeCommand_idle_or (op : CmdOp) :
    (∀ s, exec (decodeCommand op) s = .next s) ∨
    decodeCommand op ∈ [.mzfInit, .mzfTick, .caqInit, .caqTick, .abandon] := by
  have hcases : decodeCommand op ∈ [.nop, .reservedCmd 0, .reservedCmd 1] ∨
      decodeCommand op ∈ [.mzfInit, .mzfTick, .caqInit, .caqTick, .abandon] := by revert op; decide
  refine hcases.imp_left fun h s => ?_
  simp only [List.mem_cons, List.not_mem_nil, or_false] at h
  obtain h | h | h := h <;> rw [h] <;> rfl

/-- A property that does not look at the inputs is kept by a step if the five commands keep it and so does what the host
does next. -/
theorem step_keeps {P : State → Prop} (hinputs : ∀ s is, P s → P (s.setInputs is))
    (hcmd : ∀ {j s t}, j ∈ [Instr.mzfInit, .mzfTick, .caqInit, .caqTick, .abandon] → exec j s = .next t → P s → P t)
    {s t : State} (hhost : ∀ i rest, s.inputs = i :: rest → P (s.setInputs rest) → P (applyHostInput i (s.setInputs rest)))
    (h : step s = .next t) (hs : P s) : P t := by
  obtain ⟨_, hstep⟩ | ⟨op, rest, _, hstep⟩ | ⟨i, rest, hin, _, hstep⟩ := step_cases s <;> rw [hstep] at h
  · cases h; exact hs
  · obtain hidle | hj := decodeCommand_idle_or op
    · rw [hidle] at h; cases h; exact hinputs s rest hs
    · exact hcmd hj h (hinputs s rest hs)
  · cases h; exact hhost i rest hin (hinputs s rest hs)

/-! ### The forced rate (10_state.md R50 item 8) -/

theorem BaudForced.of_keepsSettings {s t : State} (hs : BaudForced s) (h : KeepsSettings s t) : BaudForced t := by
  obtain ⟨hbaud, _, hovr⟩ := h
  intro ht
  rw [hbaud]
  exact hs (hovr ▸ ht)

theorem exec_keeps_baudForced {j : Instr} {s t : State} (h : exec j s = .next t) (hs : BaudForced s) :
    BaudForced t := by
  obtain hkeep | rfl | rfl | ⟨_, hf⟩ := exec_keepsSettings h
  · exact hs.of_keepsSettings hkeep
  · exact fun _ => exec_caqInit_baud h
  · exact fun ht => absurd ((exec_abandon_settings h).1.symm.trans ht) (by decide)
  · obtain ⟨hbaud, hovr⟩ | ⟨_, _, hclear⟩ := hf.settings
    · exact hs.of_keepsSettings ⟨hbaud, hf.savedBaud, hovr⟩
    · exact fun ht => absurd (hclear.symm.trans ht) (by decide)

/-- Settles O39: the host's own write of `BAUD` is what its duty excludes. -/
theorem stepKeepsTheForcedBaud : Obligations.StepKeepsTheForcedBaud := by
  intro s t hs hhost h
  refine step_keeps (P := BaudForced) (fun _ _ h => h) (fun _ => exec_keeps_baudForced) ?_ h hs
  intro i rest hin hrest
  cases i with
  | command op => exact hrest
  | reset => exact nofun
  | setBaud v => exact fun hovr => absurd hin (hhost hovr v rest)
  | setSource src => exact hrest

/-! ### The header snapshot (20_memory.md R78) -/

theorem HeaderSnapshot.of_not_live {s : State} (h : s.enc.mstage = 16) : HeaderSnapshot s := by
  intro hlive
  rw [mzfLive, h] at hlive
  exact absurd hlive (by decide)

/-- The snapshot looks at `MSTAGE` and at the header's own registers alone. -/
theorem HeaderSnapshot.congr {s t : State} (hs : HeaderSnapshot s)
    (hlive : mzfLive t.enc = true → mzfLive s.enc = true) (hhcs : t.enc.hcs = s.enc.hcs) (hblen : t.enc.blen = s.enc.blen)
    (hhdr : t.enc.hdr = s.enc.hdr) (hfree : t.freeCtr = s.freeCtr) : HeaderSnapshot t := by
  intro ht
  obtain ⟨hcs, blen, specified⟩ := hs (hlive ht)
  have hread := memRead_congr hhdr hfree
  refine ⟨?_, ?_, by rwa [hhdr]⟩
  · rw [hhcs, hcs, ckHdr, ckHdr, headerBytes_congr hread]
  · rw [hblen, blen, bodyLength, bodyLength, hread, hread]

theorem mzfLive_eq_false_iff {e : Enc} : mzfLive e = false ↔ e.mstage = 16 := bne_eq_false_iff_eq

theorem exec_mzfTick_live {s t : State} (h : exec .mzfTick s = .next t) (ht : mzfLive t.enc = true) :
    mzfLive s.enc = true := by
  by_contra hs
  have hterm := (exec_mzfTick_stages h).1 (mzfLive_eq_false_iff.1 (Bool.not_eq_true _ ▸ hs))
  exact absurd (mzfLive_eq_false_iff.2 hterm) (ht ▸ by decide)

theorem exec_keeps_headerSnapshot {j : Instr} {s t : State}
    (hj : j ∈ [Instr.mzfInit, .mzfTick, .caqInit, .caqTick, .abandon]) (h : exec j s = .next t)
    (hs : HeaderSnapshot s) : HeaderSnapshot t := by
  simp only [List.mem_cons, List.not_mem_nil, or_false] at hj
  obtain rfl | rfl | rfl | rfl | rfl := hj
  · obtain ⟨_, rfl⟩ | ⟨bs, src, _, _, ⟨_, rfl⟩ | ⟨hlen, rfl⟩⟩ := exec_mzfInit_cases h
    · exact .of_not_live rfl
    · exact .of_not_live rfl
    · refine fun _ => ⟨rfl, rfl, fun i => ?_⟩
      have hi : i.val < bs.length := hlen ▸ i.isLt
      rw [mzfInitSucceed, mapEnc_enc, lookup_headerRead hlen, List.getElem?_eq_getElem hi]
      rfl
  · have hf := mzfTick_frame_regs h
    exact hs.congr (exec_mzfTick_live h) hf.hcs hf.blen hf.hdr hf.freeCtr
  · exact .of_not_live (exec_caqInit_stages h).1
  · have hf := caqTick_frame_regs h
    exact hs.congr (fun ht => by rwa [mzfLive, hf.mstage] at ht) hf.hcs hf.blen hf.hdr hf.freeCtr
  · exact .of_not_live (exec_abandon_stages h).1

/-- Settles O38: a tick writes none of the registers of the snapshot, and MZF_INIT takes it afresh. -/
theorem stepKeepsTheHeaderSnapshot : Obligations.StepKeepsTheHeaderSnapshot := by
  intro s t hs h
  refine step_keeps (P := HeaderSnapshot) (fun _ _ h => h) exec_keeps_headerSnapshot ?_ h hs
  intro i rest _ hrest
  cases i with
  | reset => exact .of_not_live rfl
  | command op => exact hrest
  | setBaud v => exact hrest
  | setSource src => exact hrest

/-! ### The invariant of the registers: the three shapes of a state that meets it -/

theorem code_ne_three : (0 : BitVec 2) ≠ 3 ∧ (1 : BitVec 2) ≠ 3 ∧ (2 : BitVec 2) ≠ 3 := by decide

/-- Both encoders terminal. -/
theorem EncInv.of_idle {e : Enc} (hm : e.mstage = 16) (hc : e.cstage = 4) (hp : e.period ∈ periodValues)
    (hhalf : e.phalf = false) (hl : e.loaded = false) (hblock : e.blockId ≠ 3) (htask : e.task ≠ 3)
    (hwf : Memory.wf e.hdr = true) : EncInv e where
  mstage_legal := .inr hm
  cstage_legal := by rw [hc]; decide
  one_live := .inl hm
  period_legal := hp
  idle_clear := fun _ _ => ⟨hhalf, hl⟩
  mzf_cursor := by rw [stageCursorOk, hm]; trivial
  caq_cursor := fun hlive => by rw [caqLive, hc] at hlive; exact absurd hlive (by decide)
  block_legal := hblock
  task_legal := htask
  header_wf := hwf

/-- The MZF encoder live. -/
theorem EncInv.of_mzf {e : Enc} (hm : e.mstage.toNat ≤ 13) (hc : e.cstage = 4) (hp : e.period ∈ periodValues)
    (hcursor : stageCursorOk e) (hblock : e.blockId ≠ 3) (htask : e.task ≠ 3) (hwf : Memory.wf e.hdr = true) :
    EncInv e where
  mstage_legal := .inl hm
  cstage_legal := by rw [hc]; decide
  one_live := .inr hc
  period_legal := hp
  idle_clear := fun h16 => by rw [h16] at hm; exact absurd hm (by decide)
  mzf_cursor := hcursor
  caq_cursor := fun hlive => by rw [caqLive, hc] at hlive; exact absurd hlive (by decide)
  block_legal := hblock
  task_legal := htask
  header_wf := hwf

/-- The CAQ encoder live. -/
theorem EncInv.of_caq {e : Enc} (hm : e.mstage = 16) (hc : e.cstage.toNat < 4) (hp : e.period ∈ periodValues)
    (hcursor : caqCursorOk e) (hblock : e.blockId ≠ 3) (htask : e.task ≠ 3) (hwf : Memory.wf e.hdr = true) :
    EncInv e where
  mstage_legal := .inr hm
  cstage_legal := hc.le
  one_live := .inl hm
  period_legal := hp
  idle_clear := fun _ h4 => by rw [h4] at hc; exact absurd hc (by decide)
  mzf_cursor := by rw [stageCursorOk, hm]; trivial
  caq_cursor := hcursor
  block_legal := hblock
  task_legal := htask
  header_wf := hwf

theorem zero_mem_periodValues : (0 : Period) ∈ periodValues := List.mem_cons_self

theorem byteLimit_congr (src : ByteSource) {e e' : Enc} (h : e'.blen = e.blen) : byteLimit src e' = byteLimit src e := by
  cases src <;> simp [byteLimit, h]

/-- What the cursor's invariant looks at. -/
theorem stageCursorOk_congr {e e' : Enc} (hm : e'.mstage = e.mstage) (hcnt : e'.cnt = e.cnt)
    (hblen : e'.blen = e.blen) (hl : e'.loaded = e.loaded) (hp : e'.phalf = e.phalf) (hlead : e'.lead = e.lead)
    (hmask : e'.bmask = e.bmask) (h : stageCursorOk e) : stageCursorOk e' := by
  unfold stageCursorOk at h ⊢
  rw [hm]
  split at h
  next => rwa [hcnt, hl]
  next src _ _ => rwa [hcnt, hl, hp, hlead, hmask, byteLimit_congr src hblen]
  next => trivial

/-- A terminal tick keeps the invariant, whichever encoder is live. -/
theorem EncInv.terminalTick {e : Enc} (he : EncInv e) : EncInv (terminalTick e) where
  mstage_legal := he.mstage_legal
  cstage_legal := he.cstage_legal
  one_live := he.one_live
  period_legal := zero_mem_periodValues
  idle_clear := he.idle_clear
  mzf_cursor := stageCursorOk_congr (e := e) rfl rfl rfl rfl rfl rfl rfl he.mzf_cursor
  caq_cursor := he.caq_cursor
  block_legal := he.block_legal
  task_legal := code_ne_three.2.2
  header_wf := he.header_wf

theorem EncInv.mstage_of_not_transmitting {e : Enc} (he : EncInv e) (h : ¬ e.mstage.toNat ≤ 13) : e.mstage = 16 :=
  he.mstage_legal.resolve_left h

theorem EncInv.cstage_of_mzf {e : Enc} (he : EncInv e) (h : e.mstage.toNat ≤ 13) : e.cstage = 4 :=
  he.one_live.resolve_left fun h16 => by rw [h16] at h; exact absurd h (by decide)

theorem EncInv.mstage_of_caq {e : Enc} (he : EncInv e) (h : e.cstage.toNat < 4) : e.mstage = 16 :=
  he.one_live.resolve_right fun h4 => by rw [h4] at h; exact absurd h (by decide)

/-- Settles O36: after reset both encoders are terminal, and no override is in force. -/
theorem resetMeetsTheInvariants : Obligations.ResetMeetsTheInvariants :=
  ⟨.of_idle rfl rfl zero_mem_periodValues rfl rfl code_ne_three.1 code_ne_three.1 reset_wf, .of_not_live rfl, nofun⟩

/-! ### The MZF cursor -/

/-- A stage entered between pulses with `CNT` 0 and no byte in progress. -/
theorem stageCursorOk_of_entry {e : Enc} (hcnt : e.cnt = 0) (hl : e.loaded = false) (hp : e.phalf = false) :
    stageCursorOk e := by
  unfold stageCursorOk
  split
  next k n next hrow =>
    rw [hcnt]
    exact ⟨(mzfTable_pulses hrow).1, hl⟩
  next src next hrow =>
    rw [hcnt]
    exact ⟨Nat.zero_le _, fun _ => hp, fun hl' => nomatch hl.symm.trans hl'⟩
  next => trivial

theorem stageCursorOk_pulses {e : Enc} {k : PulseKind} {n : Nat} {next : BitVec 5}
    (hrow : mzfTable e.mstage = .pulses k n next) : stageCursorOk e ↔ e.cnt.toNat < n ∧ e.loaded = false := by
  rw [stageCursorOk, hrow]

theorem stageCursorOk_bytes {e : Enc} {src : ByteSource} {next : BitVec 5}
    (hrow : mzfTable e.mstage = .bytes src next) :
    stageCursorOk e ↔ e.cnt ≤ byteLimit src e ∧ (e.loaded = false → e.phalf = false) ∧
      (e.loaded = true → e.bmask ∈ oneHotMasks ∧ (e.lead = false → e.bmask = Config.bmaskFirst)) := by
  rw [stageCursorOk, hrow]

/-- A tick from `e` to `e'` stays among the stages that transmit with their cursor right, or has ended the session
between pulses with no byte in progress. -/
def MzfCursorMove (e' : Enc) : Prop :=
  (e'.mstage.toNat ≤ 13 ∧ stageCursorOk e') ∨ (e'.mstage = 16 ∧ e'.phalf = false ∧ e'.loaded = false)

theorem MzfCursorMove.goTo {next : BitVec 5} (hnext : next.toNat ≤ 13 ∨ next = 16) {e : Enc} (hp : e.phalf = false)
    (hl : e.loaded = false) : MzfCursorMove (goTo next e) :=
  hnext.imp (fun hle => ⟨hle, stageCursorOk_of_entry rfl hl hp⟩) fun h16 => ⟨h16, hp, hl⟩

/-- Counting one more stays within the count if it is not the last. -/
theorem cnt_succ_lt {cnt : Word} {n : Nat} (hlt : cnt.toNat < n) (hn : n < 65536)
    (hmore : cnt + 1 ≠ BitVec.ofNat 16 n) : (cnt + 1).toNat = cnt.toNat + 1 ∧ cnt.toNat + 1 < n := by
  have hsucc : (cnt + 1).toNat = cnt.toNat + 1 := by
    rw [BitVec.toNat_add, show (1 : Word).toNat = 1 from rfl]; omega
  refine ⟨hsucc, Nat.lt_of_le_of_ne hlt fun heq => hmore (BitVec.eq_of_toNat_eq ?_)⟩
  rw [hsucc, BitVec.toNat_ofNat]
  omega

theorem pulseStage_cursor {k : PulseKind} {n : Nat} {next : BitVec 5} {e : Enc}
    (hrow : mzfTable e.mstage = .pulses k n next) (he : stageCursorOk e) : MzfCursorMove (pulseStage k n next e) := by
  obtain ⟨hlt, hl⟩ := (stageCursorOk_pulses hrow).1 he
  obtain ⟨_, hn, hsucc, hle⟩ := mzfTable_pulses hrow
  have hstage : e.mstage.toNat ≤ 13 := by omega
  rcases pulseStage_cases k n next e with ⟨_, h⟩ | ⟨_, hmore, h⟩ | ⟨_, _, h⟩ <;> rw [h]
  · exact .inl ⟨hstage, (stageCursorOk_pulses (e := { e with period := _, phalf := true }) hrow).2 ⟨hlt, hl⟩⟩
  · obtain ⟨heq, hlt'⟩ := cnt_succ_lt hlt hn hmore
    exact .inl ⟨hstage, (stageCursorOk_pulses (e := { e with period := _, phalf := false, cnt := e.cnt + 1 }) hrow).2
      ⟨heq ▸ hlt', hl⟩⟩
  · exact .goTo (.inl (by omega)) rfl hl

theorem shift_mem_oneHotMasks : ∀ m ∈ oneHotMasks, m ≠ 0x01 → m >>> 1 ∈ oneHotMasks := by decide

/-- What the cursor of a byte in progress is after one more half. -/
theorem emitMzfBit_cursor {e : Enc} (hl : e.loaded = true)
    (hmask : e.bmask ∈ oneHotMasks ∧ (e.lead = false → e.bmask = Config.bmaskFirst)) :
    ((emitMzfBit e).loaded = false → (emitMzfBit e).phalf = false) ∧
    ((emitMzfBit e).loaded = true → (emitMzfBit e).bmask ∈ oneHotMasks ∧
      ((emitMzfBit e).lead = false → (emitMzfBit e).bmask = Config.bmaskFirst)) := by
  obtain ⟨hone, hfirst⟩ := hmask
  rcases emitMzfBit_cases e with ⟨hlead, hp, h⟩ | ⟨hlead, hp, h⟩ | ⟨hlead, hp, h⟩ | ⟨hlead, hp, hm, h⟩ |
    ⟨hlead, hp, hm, h⟩ <;> rw [h]
  · exact ⟨fun hl' => (nomatch hl.symm.trans hl'), fun _ => ⟨hone, hfirst⟩⟩
  · exact ⟨fun _ => rfl, fun _ => ⟨hone, nofun⟩⟩
  · exact ⟨fun hl' => (nomatch hl.symm.trans hl'), fun _ => ⟨hone, hfirst⟩⟩
  · exact ⟨fun _ => rfl, fun _ => ⟨shift_mem_oneHotMasks _ hone hm, fun hlead' => nomatch hlead.symm.trans hlead'⟩⟩
  · exact ⟨fun _ => rfl, nofun⟩

theorem byteStage_cursor {src : ByteSource} {next : BitVec 5} {s : State}
    (hrow : mzfTable s.enc.mstage = .bytes src next) (hs : stageCursorOk s.enc) :
    MzfCursorMove (byteStage src next s).enc := by
  obtain ⟨hstage, hnext⟩ := mzfTable_bytes hrow
  obtain ⟨hle, hhalf, hmask⟩ := (stageCursorOk_bytes hrow).1 hs
  rcases byteStage_enc_cases src next s with ⟨hl, he⟩ | ⟨hl, hlt, b, he⟩ | ⟨hl, he⟩ <;> rw [he]
  · have hemit := emitMzfBit_cursor hl (hmask hl)
    refine .inl ⟨by simpa using hstage, (stageCursorOk_bytes (by simpa using hrow)).2 ⟨?_, hemit⟩⟩
    rw [emitMzfBit_cnt, byteLimit_congr src (emitMzfBit_blen s.enc)]
    exact hle
  · have hemit := emitMzfBit_cursor (e := accumulate src b (loadMzfByte b s.enc)) (by simp) (by simp [Config.bmaskFirst, oneHotMasks])
    refine .inl ⟨by simpa using hstage, (stageCursorOk_bytes (by simpa using hrow)).2 ⟨?_, hemit⟩⟩
    have hsucc : (s.enc.cnt + 1).toNat ≤ (byteLimit src s.enc).toNat := by
      rw [BitVec.toNat_add, show (1 : Word).toNat = 1 from rfl]
      exact (Nat.mod_le _ _).trans hlt
    rw [byteLimit_congr src (e := s.enc) (by simp), emitMzfBit_cnt, accumulate_cnt, loadMzfByte_cnt]
    exact hsucc
  · exact .goTo (hnext.imp And.right And.right) (hhalf hl) hl

theorem exec_mzfTick_cursor {s t : State} (h : exec .mzfTick s = .next t) (hm : s.enc.mstage.toNat ≤ 13)
    (hs : stageCursorOk s.enc) : MzfCursorMove t.enc := by
  rcases exec_mzfTick_cases h with ⟨k, n, next, hrow, rfl⟩ | ⟨src, next, hrow, rfl⟩ | ⟨hrow, rfl⟩
  · exact pulseStage_cursor hrow hs
  · exact byteStage_cursor hrow hs
  · have := mzfTable_terminal hrow; omega

/-! ### The CAQ cursor -/

/-- A tick stays among the live stages with their cursor right, or has completed the session between pulses. -/
def CaqCursorMove (e' : Enc) : Prop :=
  (e'.cstage.toNat < 4 ∧ caqCursorOk e') ∨ (e'.cstage = 4 ∧ e'.phalf = false ∧ e'.loaded = false)

/-- What the cursor of a byte in progress asks of `BIDX`. -/
def caqBidxOk (e : Enc) : Prop :=
  (e.cstage = CaqStage.startBit → e.bidx = 7) ∧ (e.cstage = CaqStage.stopBit1 ∨ e.cstage = CaqStage.stopBit2 → e.bidx = 0)

theorem caqCursorOk_of_loaded {e : Enc} (hl : e.loaded = true) (hb : caqBidxOk e) : caqCursorOk e :=
  fun _ => ⟨fun hl' => (nomatch hl.symm.trans hl'), hb⟩

theorem caqCursorOk_dataBits {e : Enc} (hst : e.cstage = CaqStage.dataBits) (hl : e.loaded = true) : caqCursorOk e := by
  refine caqCursorOk_of_loaded hl ?_
  rw [caqBidxOk, hst]
  exact ⟨fun h => absurd h (by decide), fun h => absurd h (by decide)⟩

theorem caqCursorOk_startBit {e : Enc} (hst : e.cstage = CaqStage.startBit) (hl : e.loaded = true) (hb : e.bidx = 7) :
    caqCursorOk e := by
  refine caqCursorOk_of_loaded hl ?_
  rw [caqBidxOk, hst]
  exact ⟨fun _ => hb, fun h => absurd h (by decide)⟩

theorem caqBidxOk_stop {e : Enc} (hst : e.cstage = CaqStage.stopBit1 ∨ e.cstage = CaqStage.stopBit2) (hb : e.bidx = 0) :
    caqBidxOk e := by
  refine ⟨fun hstart => ?_, fun _ => hb⟩
  rw [hstart] at hst
  exact absurd hst (by decide)

theorem stopBit2_of_live {c : BitVec 3} (hlive : c.toNat < 4) (hstart : c ≠ CaqStage.startBit)
    (hdata : c ≠ CaqStage.dataBits) (hstop1 : c ≠ CaqStage.stopBit1) : c = CaqStage.stopBit2 := by
  revert c; decide

/-- The four advances, from the stage in `CSTAGE`, between cycles. -/
theorem caqAdvance_cursor {e : Enc} (hlive : e.cstage.toNat < 4) (hl : e.loaded = true) (hb : caqBidxOk e)
    (hp : e.phalf = false) (hc : e.ccyc = false) : caqCursorOk (caqAdvance e.cstage e) := by
  obtain ⟨_, hstop⟩ := hb
  unfold caqAdvance
  split
  next => exact caqCursorOk_dataBits rfl hl
  split
  next _ hdata =>
    split
    next hzero => exact caqCursorOk_of_loaded hl (caqBidxOk_stop (.inl rfl) hzero)
    next => exact caqCursorOk_dataBits hdata hl
  split
  next _ _ hstop1 => exact caqCursorOk_of_loaded hl (caqBidxOk_stop (.inr rfl) (hstop (.inl hstop1)))
  next hstart hdata hstop1 =>
    have hstop2 := stopBit2_of_live hlive hstart hdata hstop1
    exact fun _ => ⟨fun _ => ⟨hp, hc, .inr hstop2⟩, fun h => absurd h hstart, fun _ => hstop (.inr hstop2)⟩

theorem caqEmit_cursor {e : Enc} (hlive : e.cstage.toNat < 4) (hl : e.loaded = true) (hb : caqBidxOk e) :
    CaqCursorMove (caqEmit e.cstage e) := by
  refine .inl ⟨caqEmit_cstage_lt _ hlive, ?_⟩
  rcases caqEmit_cases e.cstage e with ⟨_, h⟩ | ⟨_, _, h⟩ | ⟨_, _, h⟩ <;> rw [h]
  · exact caqCursorOk_of_loaded hl hb
  · exact caqCursorOk_of_loaded hl hb
  · exact caqAdvance_cursor (e := { e with period := _, phalf := false, ccyc := false }) hlive hl hb rfl rfl

theorem exec_caqTick_cursor {s t : State} (h : exec .caqTick s = .next t) (hlive : s.enc.cstage.toNat < 4)
    (hs : caqCursorOk s.enc) : CaqCursorMove t.enc := by
  obtain ⟨hedge, hb⟩ := hs (decide_eq_true hlive)
  obtain ⟨_, rfl⟩ | ⟨hdone, _⟩ := exec_caqTick_cases h
  · rcases caqStageTick_cases s.enc.cstage s with ⟨hl, ht⟩ | ⟨_, b, _, ht⟩ | ⟨hl, _, ht⟩ <;> rw [ht]
    · exact caqEmit_cursor hlive hl hb
    · have hstart : CaqStage.startBit.toNat < 4 := by decide
      have hb : caqBidxOk (loadCaqByte b s.enc) := (caqCursorOk_startBit rfl rfl rfl (decide_eq_true hstart)).2
      exact caqEmit_cursor hstart rfl hb
    · rw [caqExhausted, enterTerminal_caq_enc]
      exact .inr ⟨rfl, (hedge hl).1, hl⟩
  · omega

/-! ### The invariant -/

theorem mzfPeriods_subset : mzfPeriods ⊆ periodValues := by
  intro p hp
  simp only [mzfPeriods, periodValues, List.mem_cons, List.not_mem_nil, or_false] at hp ⊢
  tauto

theorem caqPeriods_subset : caqPeriods ⊆ periodValues := by
  intro p hp
  simp only [caqPeriods, periodValues, List.mem_cons, List.not_mem_nil, or_false] at hp ⊢
  tauto

theorem task_ne_three {c : Prop} [Decidable c] {task task' : BitVec 2} (h : task' = if c then 2 else task)
    (htask : task ≠ 3) : task' ≠ 3 := by
  rw [h]
  split
  · decide
  · exact htask

theorem exec_mzfTick_keeps_inv {s t : State} (h : exec .mzfTick s = .next t) (hs : StateInv s) : StateInv t := by
  by_cases hm : s.enc.mstage.toNat ≤ 13
  · have hf := mzfTick_frame_regs h
    obtain ⟨hblock, htask⟩ := exec_mzfTick_handOff h
    have hperiod := mzfPeriods_subset (mzfTick_period_mem h)
    have hdone : t.enc.cstage = 4 := hf.cstage.trans (hs.cstage_of_mzf hm)
    have hblock' : t.enc.blockId ≠ 3 := hblock ▸ hs.block_legal
    have htask' := task_ne_three htask hs.task_legal
    have hwf : Memory.wf t.enc.hdr = true := hf.hdr ▸ hs.header_wf
    obtain ⟨hlive, hcursor⟩ | ⟨hterm, hp, hl⟩ := exec_mzfTick_cursor h hm hs.mzf_cursor
    · exact .of_mzf hlive hdone hperiod hcursor hblock' htask' hwf
    · exact .of_idle hterm hdone hperiod hp hl hblock' htask' hwf
  · have hterm : runMzfRow (mzfTable s.enc.mstage) s = s.mapEnc terminalTick := by
      rw [hs.mstage_of_not_transmitting hm]; rfl
    rw [exec_mzfTick, hterm] at h
    cases h
    exact EncInv.terminalTick hs

theorem exec_caqTick_keeps_inv {s t : State} (h : exec .caqTick s = .next t) (hs : StateInv s) : StateInv t := by
  by_cases hc : s.enc.cstage.toNat < 4
  · have hf := caqTick_frame_regs h
    obtain ⟨hblock, htask⟩ := exec_caqTick_handOff h
    have hperiod := caqPeriods_subset (caqTick_period_mem h)
    have hterm : t.enc.mstage = 16 := hf.mstage.trans (hs.mstage_of_caq hc)
    have hblock' : t.enc.blockId ≠ 3 := hblock ▸ hs.block_legal
    have htask' := task_ne_three htask hs.task_legal
    have hwf : Memory.wf t.enc.hdr = true := hf.hdr ▸ hs.header_wf
    obtain ⟨hlive, hcursor⟩ | ⟨hdone, hp, hl⟩ := exec_caqTick_cursor h hc hs.caq_cursor
    · exact .of_caq hterm hlive hperiod hcursor hblock' htask' hwf
    · exact .of_idle hterm hdone hperiod hp hl hblock' htask' hwf
  · rw [exec_caqTick, runCaqStage, if_neg hc] at h
    cases h
    exact EncInv.terminalTick hs

theorem exec_mzfInit_keeps_inv {s t : State} (h : exec .mzfInit s = .next t) (hs : StateInv s) : StateInv t := by
  obtain ⟨_, rfl⟩ | ⟨bs, src, _, _, ⟨_, rfl⟩ | ⟨hlen, rfl⟩⟩ := exec_mzfInit_cases h
  · exact .of_idle rfl rfl zero_mem_periodValues rfl rfl code_ne_three.2.1 code_ne_three.2.2 rfl
  · exact .of_idle rfl rfl zero_mem_periodValues rfl rfl code_ne_three.2.1 code_ne_three.2.2 rfl
  · exact .of_mzf (Nat.zero_le 13) rfl zero_mem_periodValues (stageCursorOk_of_entry rfl rfl rfl) code_ne_three.2.1
      code_ne_three.2.1 (wf_writeFrom bs (by omega) hs.header_wf)

theorem exec_caqInit_keeps_inv {s t : State} (h : exec .caqInit s = .next t) (hs : StateInv s) : StateInv t := by
  have hhdr : t.enc.hdr = s.enc.hdr := by
    rw [exec_caqInit] at h
    cases h
    cases hovr : s.enc.ovr with
    | true => rw [saveBaud_of_ovr hovr]
    | false => rw [saveBaud_of_not_ovr hovr]; rfl
  rw [exec_caqInit] at h
  cases h
  have hlive : (0 : BitVec 3).toNat < 4 := by decide
  exact .of_caq rfl hlive zero_mem_periodValues
    (fun _ => ⟨fun _ => ⟨rfl, rfl, .inl rfl⟩, fun _ => rfl, fun hstop => absurd hstop (by simp [CaqStage.stopBit1, CaqStage.stopBit2])⟩)
    code_ne_three.2.2 code_ne_three.2.1 (hhdr ▸ hs.header_wf)

theorem exec_abandon_keeps_inv {s t : State} (h : exec .abandon s = .next t) (hs : StateInv s) : StateInv t := by
  rw [exec_abandon] at h
  cases h
  exact .of_idle rfl rfl zero_mem_periodValues rfl rfl code_ne_three.1 code_ne_three.1
    (by rw [setEnc_enc, baudRestore_enc]; exact hs.header_wf)

/-- Settles O37: command by command; of the host's other actions only reset writes a register. -/
theorem stepKeepsTheInvariant : Obligations.StepKeepsTheInvariant := by
  intro s t hs h
  refine step_keeps (P := StateInv) (fun _ _ h => h) (fun {j s t} hj hexec hinv => ?_) (fun i rest _ hrest => ?_) h hs
  · simp only [List.mem_cons, List.not_mem_nil, or_false] at hj
    obtain rfl | rfl | rfl | rfl | rfl := hj
    · exact exec_mzfInit_keeps_inv hexec hinv
    · exact exec_mzfTick_keeps_inv hexec hinv
    · exact exec_caqInit_keeps_inv hexec hinv
    · exact exec_caqTick_keeps_inv hexec hinv
    · exact exec_abandon_keeps_inv hexec hinv
  · cases i with
    | reset => exact resetMeetsTheInvariants.1
    | command op => exact hrest
    | setBaud v => exact hrest
    | setSource src => exact hrest

end Sys2Proof.Machine
end

section
/-! Zero ticks (40_pulse.md R124, 60_exceptions.md R259, 70_reset_and_hazards.md R288): which ticks emit nothing, and what
they leave. -/

namespace Sys2Proof.Machine

/-! ### A tick emits, or is a zero tick -/

/-- A tick that emits: `PERIOD` is not 0 and `PHALF` flips. -/
def Emits (e e' : Enc) : Prop := e'.period ≠ 0 ∧ e'.phalf = !e.phalf

theorem pulseStage_emits (k : PulseKind) (n : Nat) (next : BitVec 5) (e : Enc) : Emits e (pulseStage k n next e) :=
  ⟨by rw [pulseStage_period]; exact pulse_period_ne_zero k e, pulseStage_phalf k n next e⟩

theorem emitMzfBit_emits (e : Enc) : Emits e (emitMzfBit e) := by
  obtain ⟨bit, hbit⟩ := emitMzfBit_period e
  exact ⟨by rw [hbit]; exact pulse_period_ne_zero _ e, emitMzfBit_phalf e⟩

theorem caqEmit_emits (st : BitVec 3) (e : Enc) : Emits e (caqEmit st e) :=
  ⟨by rw [caqEmit_period]; exact pulse_period_ne_zero _ e, caqEmit_phalf st e⟩

/-- MZF_TICK emits, enters the next stage of an exhausted byte-producing stage, or is the terminal tick. -/
theorem exec_mzfTick_emits_or {s t : State} (h : exec .mzfTick s = .next t) :
    Emits s.enc t.enc ∨
    (∃ src next, mzfTable s.enc.mstage = .bytes src next ∧ s.enc.loaded = false ∧
      t.enc = goTo next { s.enc with period := 0 }) ∨
    (mzfTable s.enc.mstage = .terminal ∧ t.enc = terminalTick s.enc) := by
  rcases exec_mzfTick_cases h with ⟨k, n, next, _, rfl⟩ | ⟨src, next, hrow, rfl⟩ | ⟨hrow, rfl⟩
  · exact .inl (pulseStage_emits k n next s.enc)
  · rcases byteStage_enc_cases src next s with ⟨_, he⟩ | ⟨_, _, b, he⟩ | ⟨hl, he⟩
    · rw [he]; exact .inl (emitMzfBit_emits _)
    · have hemit := emitMzfBit_emits (accumulate src b (loadMzfByte b s.enc))
      rw [Emits, accumulate_phalf, loadMzfByte_phalf, ← he] at hemit
      exact .inl hemit
    · exact .inr (.inl ⟨src, next, hrow, hl, he⟩)
  · exact .inr (.inr ⟨hrow, rfl⟩)

/-- CAQ_TICK emits, completes the session on an exhausted source, or is the terminal tick. -/
theorem exec_caqTick_emits_or {s t : State} (h : exec .caqTick s = .next t) :
    Emits s.enc t.enc ∨
    (s.enc.cstage.toNat < 4 ∧ s.enc.loaded = false ∧
      t.enc = { s.enc with cstage := 4, ovr := false, task := 2, period := 0 }) ∨
    (4 ≤ s.enc.cstage.toNat ∧ t.enc = doneTick s.enc) := by
  obtain ⟨hlive, rfl⟩ | ⟨hdone, rfl⟩ := exec_caqTick_cases h
  · rcases caqStageTick_cases s.enc.cstage s with ⟨_, ht⟩ | ⟨_, b, _, ht⟩ | ⟨hl, _, ht⟩ <;> rw [ht]
    · exact .inl (caqEmit_emits _ _)
    · exact .inl (caqEmit_emits CaqStage.startBit (loadCaqByte b s.enc))
    · rw [caqExhausted, enterTerminal_caq_enc]
      exact .inr (.inl ⟨hlive, hl, rfl⟩)
  · exact .inr (.inr ⟨hdone, rfl⟩)

theorem exec_mzfTick_phalf {s t : State} (h : exec .mzfTick s = .next t) :
    t.enc.phalf = if t.enc.period = 0 then s.enc.phalf else !s.enc.phalf := by
  obtain ⟨hne, hflip⟩ | ⟨_, _, _, _, he⟩ | ⟨_, he⟩ := exec_mzfTick_emits_or h
  · rw [if_neg hne, hflip]
  · rw [he]; rfl
  · rw [he]; rfl

theorem exec_caqTick_phalf {s t : State} (h : exec .caqTick s = .next t) :
    t.enc.phalf = if t.enc.period = 0 then s.enc.phalf else !s.enc.phalf := by
  obtain ⟨hne, hflip⟩ | ⟨_, _, he⟩ | ⟨_, he⟩ := exec_caqTick_emits_or h
  · rw [if_neg hne, hflip]
  · rw [he]; rfl
  · rw [he]; rfl

/-! ### Zero ticks under the invariant -/

theorem EncInv.transmits_of_live {e : Enc} (he : EncInv e) (h : mzfLive e = true) : e.mstage.toNat ≤ 13 :=
  he.mstage_legal.resolve_right fun h16 => by rw [mzfLive, h16] at h; exact absurd h (by decide)

theorem EncInv.cstage_of_not_live {e : Enc} (he : EncInv e) (h : caqLive e = false) : e.cstage = 4 := by
  have hge : ¬ e.cstage.toNat < 4 := of_decide_eq_false h
  exact BitVec.eq_of_toNat_eq (Nat.le_antisymm he.cstage_legal (Nat.le_of_not_lt hge))

theorem mzfLive_zero_tick {s t : State} (hs : StateInv s) (hlive : mzfLive s.enc = true)
    (h : exec .mzfTick s = .next t) (hz : t.enc.period = 0) : t.enc.phalf = false ∧ t.enc.loaded = false := by
  obtain ⟨hne, _⟩ | ⟨src, next, hrow, hl, he⟩ | ⟨hrow, _⟩ := exec_mzfTick_emits_or h
  · exact absurd hz hne
  · rw [he]
    exact ⟨((stageCursorOk_bytes hrow).1 hs.mzf_cursor).2.1 hl, hl⟩
  · have := mzfTable_terminal hrow
    have := hs.transmits_of_live hlive
    omega

theorem caqLive_zero_tick {s t : State} (hs : StateInv s) (hlive : caqLive s.enc = true)
    (h : exec .caqTick s = .next t) (hz : t.enc.period = 0) : t.enc.phalf = false ∧ t.enc.loaded = false := by
  obtain ⟨hne, _⟩ | ⟨_, hl, he⟩ | ⟨hdone, _⟩ := exec_caqTick_emits_or h
  · exact absurd hz hne
  · rw [he]
    exact ⟨((hs.caq_cursor hlive).1 hl).1, hl⟩
  · exact absurd (of_decide_eq_true hlive) (Nat.not_lt.2 hdone)

/-- Settles O49: the zero tick of a live encoder is the one that finds no byte, which the invariant puts between pulses. -/
theorem liveZeroTicksLeaveNoHalfPulse : Obligations.LiveZeroTicksLeaveNoHalfPulse :=
  fun _ _ hs => ⟨mzfLive_zero_tick hs, caqLive_zero_tick hs⟩

/-- With neither encoder live a zero tick keeps the clear half flag. -/
theorem EncInv.phalf_of_idle {e : Enc} (he : EncInv e) (hm : mzfLive e = false) (hc : caqLive e = false) :
    e.phalf = false :=
  (he.idle_clear (mzfLive_eq_false_iff.1 hm) (he.cstage_of_not_live hc)).1

theorem exec_init_phalf {s t : State} {j : Instr} (hj : j ∈ [Instr.mzfInit, .caqInit, .abandon])
    (h : exec j s = .next t) : t.enc.phalf = false := by
  simp only [List.mem_cons, List.not_mem_nil, or_false] at hj
  obtain rfl | rfl | rfl := hj
  · obtain ⟨_, rfl⟩ | ⟨_, _, _, _, ⟨_, rfl⟩ | ⟨_, rfl⟩⟩ := exec_mzfInit_cases h <;> rfl
  · rw [exec_caqInit] at h; cases h; rfl
  · rw [exec_abandon] at h; cases h; rfl

/-- Settles O57: the flag follows what is emitted, so a zero tick from a state with it clear leaves it clear. -/
theorem halfFlagIsClearBetweenPulses : Obligations.HalfFlagIsClearBetweenPulses := by
  refine ⟨fun s t j hj h => ?_, fun s t j hj h => exec_init_phalf hj h, fun _ => rfl, fun s t hs => ⟨?_, ?_⟩⟩
  · obtain rfl | rfl := hj
    · exact exec_mzfTick_phalf h
    · exact exec_caqTick_phalf h
  · intro hcaq h hz
    cases hmzf : mzfLive s.enc with
    | true => exact (mzfLive_zero_tick hs hmzf h hz).1
    | false => rw [exec_mzfTick_phalf h, if_pos hz]; exact hs.phalf_of_idle hmzf hcaq
  · intro hmzf h hz
    cases hcaq : caqLive s.enc with
    | true => exact (caqLive_zero_tick hs hcaq h hz).1
    | false => rw [exec_caqTick_phalf h, if_pos hz]; exact hs.phalf_of_idle hmzf hcaq

/-- Settles O50: the tick of an encoder that is not live is the terminal tick. -/
theorem wrongTickKeepsTheHalfPulse : Obligations.WrongTickKeepsTheHalfPulse := by
  refine fun s hp => ⟨fun hc _ => ⟨_, terminalTicksOnlyReportEndOfFile s .caqTick ?_, rfl, rfl, hp, rfl⟩,
    fun hm _ => ⟨_, terminalTicksOnlyReportEndOfFile s .mzfTick ?_, rfl, rfl, hp, rfl⟩⟩
  · exact .inr (.inr (.inr ⟨rfl, by rw [hc]; decide⟩))
  · exact .inr (.inr (.inl ⟨rfl, by rw [hm]; decide⟩))

/-! ### No two in a row (70_reset_and_hazards.md R288) -/

/-- What comes after a byte-producing stage is not the body: TERMINAL, a pulse-counted stage, or a stage that finds its
bytes in the registers. -/
theorem mzfTable_after_bytes {c next : BitVec 5} {src : ByteSource} (h : mzfTable c = .bytes src next) :
    next = 16 ∨ (∃ k n next', mzfTable next = .pulses k n next') ∨
      ∃ src' next', mzfTable next = .bytes src' next' ∧ src' ≠ .body := by
  revert h
  unfold mzfTable
  have hlt : c.toNat < 32 := c.isLt
  generalize c.toNat = m at hlt
  interval_cases m <;> intro h <;> cases h
  · exact .inr (.inr ⟨_, _, rfl, by decide⟩)
  · exact .inr (.inr ⟨_, _, rfl, by decide⟩)
  · exact .inr (.inr ⟨_, _, rfl, by decide⟩)
  · exact .inr (.inl ⟨_, _, _, rfl⟩)
  · exact .inr (.inr ⟨_, _, rfl, by decide⟩)
  · exact .inl rfl

/-- A stage that finds its bytes in the registers has one to begin with. -/
theorem nextByte_first {src : ByteSource} (hsrc : src ≠ .body) {s : State} (h : s.enc.cnt = 0) :
    ∃ b, nextByte src s = (some b, s) := by
  cases src with
  | header => exact ⟨_, nextByte_header (n := 0) h⟩
  | headerChecksum => exact ⟨_, by rw [nextByte, h, checksumByte, if_pos rfl]⟩
  | body => exact absurd rfl hsrc
  | bodyChecksum => exact ⟨_, by rw [nextByte, h, checksumByte, if_pos rfl]⟩

/-- A stage entered from a byte-producing one, other than TERMINAL, emits on its first tick. -/
theorem first_tick_emits {c : BitVec 5} {src : ByteSource} {t : State} (hrow : mzfTable c = .bytes src t.enc.mstage)
    (hne : t.enc.mstage ≠ 16) (hcnt : t.enc.cnt = 0) (hl : t.enc.loaded = false) :
    ∃ u, exec .mzfTick t = .next u ∧ u.enc.period ≠ 0 := by
  obtain h16 | ⟨k, n, next', hnext⟩ | ⟨src', next', hnext, hsrc⟩ := mzfTable_after_bytes hrow
  · exact absurd h16 hne
  · exact ⟨_, exec_mzfTick_pulses hnext, (pulseStage_emits k n next' t.enc).1⟩
  · obtain ⟨b, hb⟩ := nextByte_first hsrc hcnt
    refine ⟨_, exec_mzfTick_bytes hnext, ?_⟩
    rw [byteStage_load next' hl hb]
    exact (emitMzfBit_emits _).1

/-- Settles O48. -/
theorem noTwoZeroTicksInARow : Obligations.NoTwoZeroTicksInARow := by
  refine fun s t hs => ⟨fun h hz => ?_, fun h hz => ?_⟩
  · obtain ⟨hne, _⟩ | ⟨src, next, hrow, hl, he⟩ | ⟨hrow, he⟩ := exec_mzfTick_emits_or h
    · exact absurd hz hne
    · by_cases hterm : next = 16
      · rw [he, hterm]; exact .inl ⟨rfl, rfl⟩
      · have hstage : t.enc.mstage = next := by rw [he]; rfl
        exact .inr (first_tick_emits (hstage.symm ▸ hrow) (hstage ▸ hterm) (by rw [he]; rfl) (by rw [he]; exact hl))
    · have hge := mzfTable_terminal hrow
      rw [he]
      exact .inl ⟨hs.mstage_of_not_transmitting (by omega), rfl⟩
  · obtain ⟨hne, _⟩ | ⟨_, _, he⟩ | ⟨hdone, he⟩ := exec_caqTick_emits_or h
    · exact absurd hz hne
    · rw [he]; exact ⟨rfl, rfl⟩
    · rw [he]
      exact ⟨hs.cstage_of_not_live (decide_eq_false (Nat.not_lt.2 hdone)), rfl⟩

end Sys2Proof.Machine
end

section
/-! Termination of an MZF session (70_reset_and_hazards.md R299): a bound on the ticks left that every tick lowers. -/

namespace Sys2Proof.Machine

/-! ### The ticks left -/

/-- The most bytes a source gives in its stage; the body has at most 65535. -/
def maxBytes : ByteSource → Nat
  | .header => 128
  | .headerChecksum => 2
  | .body => 65535
  | .bodyChecksum => 2

/-- The most ticks a stage takes from its entry: two a pulse, or 18 a byte and the zero tick. -/
def stageTicks (c : BitVec 5) : Nat :=
  match mzfTable c with
  | .pulses _ n _ => 2 * n
  | .bytes src _ => 18 * maxBytes src + 1
  | .terminal => 0

/-- The most ticks a session takes from the entry to the stage `c`. -/
def ticksFrom (c : BitVec 5) : Nat := (((List.range 14).drop c.toNat).map fun m => stageTicks (BitVec.ofNat 5 m)).sum

/-- The ticks left of the byte in progress: of its 18, or of its data pulses from the one `BMASK` selects. -/
def byteTicksLeft (e : Enc) : Nat :=
  if e.loaded then (if e.lead then 2 * (Nat.log2 e.bmask.toNat + 1) else 18) - e.phalf.toNat else 0

/-- A bound on the ticks left of a session. -/
def ticksLeft (e : Enc) : Nat :=
  match mzfTable e.mstage with
  | .pulses _ n next => 2 * (n - e.cnt.toNat) - e.phalf.toNat + ticksFrom next
  | .bytes src next =>
    18 * ((byteLimit src e).toNat - e.cnt.toNat) + byteTicksLeft e + 1 + ticksFrom next
  | .terminal => 0

theorem ticksFrom_lgap : ticksFrom 0 = 70966 + 18 * 65535 := by decide

theorem ticksFrom_pulses {c next : BitVec 5} {k : PulseKind} {n : Nat} (h : mzfTable c = .pulses k n next) :
    ticksFrom c = 2 * n + ticksFrom next ∧ ticksFrom c ≤ ticksFrom 0 := by
  revert h
  have hc : c = BitVec.ofNat 5 c.toNat := by simp
  have hlt : c.toNat < 32 := c.isLt
  rw [hc]
  generalize c.toNat = m at hlt
  interval_cases m <;> (intro h; cases h) <;> decide

/-- The gaps before the byte-producing stages leave room for one byte more. -/
theorem ticksFrom_bytes {c next : BitVec 5} {src : ByteSource} (h : mzfTable c = .bytes src next) :
    ticksFrom c = 18 * maxBytes src + 1 + ticksFrom next ∧ ticksFrom c + 18 ≤ ticksFrom 0 := by
  revert h
  have hc : c = BitVec.ofNat 5 c.toNat := by simp
  have hlt : c.toNat < 32 := c.isLt
  rw [hc]
  generalize c.toNat = m at hlt
  interval_cases m <;> (intro h; cases h) <;> decide

theorem ticksLeft_pulses {e : Enc} {k : PulseKind} {n : Nat} {next : BitVec 5}
    (h : mzfTable e.mstage = .pulses k n next) :
    ticksLeft e = 2 * (n - e.cnt.toNat) - e.phalf.toNat + ticksFrom next := by
  rw [ticksLeft, h]

theorem ticksLeft_bytes {e : Enc} {src : ByteSource} {next : BitVec 5} (h : mzfTable e.mstage = .bytes src next) :
    ticksLeft e = 18 * ((byteLimit src e).toNat - e.cnt.toNat) + byteTicksLeft e + 1 + ticksFrom next := by
  rw [ticksLeft, h]

theorem byteLimit_le_maxBytes (src : ByteSource) (e : Enc) : (byteLimit src e).toNat ≤ maxBytes src := by
  cases src with
  | header => exact Nat.le_refl 128
  | headerChecksum => exact Nat.le_refl 2
  | body => exact Nat.le_of_lt_succ e.blen.isLt
  | bodyChecksum => exact Nat.le_refl 2

theorem log2_oneHot_le : ∀ m ∈ oneHotMasks, Nat.log2 m.toNat ≤ 7 := by decide

theorem log2_shift : ∀ m ∈ oneHotMasks, m ≠ 0x01 → Nat.log2 (m >>> 1).toNat + 1 = Nat.log2 m.toNat := by decide

theorem byteTicksLeft_of_unloaded {e : Enc} (h : e.loaded = false) : byteTicksLeft e = 0 := by
  rw [byteTicksLeft, h]; rfl

theorem byteTicksLeft_le {e : Enc} (h : e.loaded = true → e.bmask ∈ oneHotMasks) : byteTicksLeft e ≤ 18 := by
  unfold byteTicksLeft
  split
  next hl =>
    have := log2_oneHot_le _ (h hl)
    split <;> omega
  next => exact Nat.zero_le _

/-- Each half of a byte in progress is one tick of it less. -/
theorem emitMzfBit_byteTicksLeft {e : Enc} (hl : e.loaded = true)
    (hmask : e.bmask ∈ oneHotMasks ∧ (e.lead = false → e.bmask = Config.bmaskFirst)) :
    byteTicksLeft (emitMzfBit e) < byteTicksLeft e := by
  obtain ⟨hone, hfirst⟩ := hmask
  have hle := log2_oneHot_le _ hone
  rcases emitMzfBit_cases e with ⟨hlead, hp, h⟩ | ⟨hlead, hp, h⟩ | ⟨hlead, hp, h⟩ | ⟨hlead, hp, hm, h⟩ |
    ⟨hlead, hp, hm, h⟩ <;> rw [h] <;> simp only [byteTicksLeft, hl, hlead, hp, if_true, Bool.false_eq_true, if_false, Bool.toNat_true, Bool.toNat_false]
  · omega
  · rw [hfirst hlead]; decide
  · omega
  · have := log2_shift _ hone hm
    omega
  · omega

/-- What is left at the entry to a stage is at most what the stage and those after it take. -/
theorem ticksLeft_of_entry {e : Enc} (hcnt : e.cnt = 0) (hl : e.loaded = false) (hp : e.phalf = false) :
    ticksLeft e ≤ ticksFrom e.mstage := by
  cases hrow : mzfTable e.mstage with
  | pulses k n next =>
    rw [ticksLeft_pulses hrow, (ticksFrom_pulses hrow).1, hcnt, hp]
    exact Nat.le_refl _
  | bytes src next =>
    have := byteLimit_le_maxBytes src e
    rw [ticksLeft_bytes hrow, (ticksFrom_bytes hrow).1, hcnt, byteTicksLeft_of_unloaded hl,
      show (0 : Word).toNat = 0 from rfl]
    omega
  | terminal => rw [ticksLeft, hrow]; exact Nat.zero_le _

theorem ticksLeft_le {e : Enc} (he : EncInv e) : ticksLeft e ≤ 70966 + 18 * 65535 := by
  rw [← ticksFrom_lgap]
  cases hrow : mzfTable e.mstage with
  | pulses k n next =>
    obtain ⟨hfrom, hle⟩ := ticksFrom_pulses hrow
    rw [ticksLeft_pulses hrow]
    omega
  | bytes src next =>
    obtain ⟨hfrom, hle⟩ := ticksFrom_bytes hrow
    have hbyte := byteTicksLeft_le fun hl => (((stageCursorOk_bytes hrow).1 he.mzf_cursor).2.2 hl).1
    have hlimit := byteLimit_le_maxBytes src e
    rw [ticksLeft_bytes hrow]
    omega
  | terminal => rw [ticksLeft, hrow]; exact Nat.zero_le _

/-! ### Every tick lowers it -/

theorem pulseStage_ticksLeft {k : PulseKind} {n : Nat} {next : BitVec 5} {e : Enc}
    (hrow : mzfTable e.mstage = .pulses k n next) (he : stageCursorOk e) :
    ticksLeft (pulseStage k n next e) < ticksLeft e := by
  obtain ⟨hlt, hl⟩ := (stageCursorOk_pulses hrow).1 he
  obtain ⟨_, hn, _, _⟩ := mzfTable_pulses hrow
  rw [ticksLeft_pulses hrow]
  rcases pulseStage_cases k n next e with ⟨hp, h⟩ | ⟨hp, hmore, h⟩ | ⟨hp, _, h⟩ <;> rw [h, hp]
  · rw [ticksLeft_pulses (e := { e with period := up k, phalf := true }) hrow, Bool.toNat_true, Bool.toNat_false]
    dsimp only
    omega
  · obtain ⟨hsucc, hlt'⟩ := cnt_succ_lt hlt hn hmore
    rw [ticksLeft_pulses (e := { e with period := down k, phalf := false, cnt := e.cnt + 1 }) hrow, hsucc,
      Bool.toNat_true, Bool.toNat_false]
    omega
  · have hentry := ticksLeft_of_entry (e := goTo next { e with period := down k, phalf := false }) rfl hl rfl
    rw [goTo_mstage] at hentry
    rw [Bool.toNat_true]
    omega

theorem byteStage_ticksLeft {src : ByteSource} {next : BitVec 5} {s : State}
    (hrow : mzfTable s.enc.mstage = .bytes src next) (hs : stageCursorOk s.enc) :
    ticksLeft (byteStage src next s).enc < ticksLeft s.enc := by
  obtain ⟨hle, hhalf, hmask⟩ := (stageCursorOk_bytes hrow).1 hs
  rw [ticksLeft_bytes hrow]
  rcases byteStage_enc_cases src next s with ⟨hl, he⟩ | ⟨hl, hlt, b, he⟩ | ⟨hl, he⟩ <;> rw [he]
  · have hbyte := emitMzfBit_byteTicksLeft hl (hmask hl)
    rw [ticksLeft_bytes (src := src) (next := next) (by rw [emitMzfBit_mstage, hrow]), emitMzfBit_cnt,
      byteLimit_congr src (emitMzfBit_blen s.enc)]
    omega
  · have hbyte := emitMzfBit_byteTicksLeft (e := accumulate src b (loadMzfByte b s.enc)) (by simp)
      (by simp [Config.bmaskFirst, oneHotMasks])
    have hfull : byteTicksLeft (accumulate src b (loadMzfByte b s.enc)) ≤ 18 :=
      byteTicksLeft_le fun _ => by simp [Config.bmaskFirst, oneHotMasks]
    have hsucc : (s.enc.cnt + 1).toNat = s.enc.cnt.toNat + 1 := by
      have := (byteLimit src s.enc).isLt
      rw [BitVec.toNat_add, show (1 : Word).toNat = 1 from rfl]
      omega
    rw [ticksLeft_bytes (src := src) (next := next) (by simp [hrow]), byteTicksLeft_of_unloaded hl, emitMzfBit_cnt,
      accumulate_cnt, loadMzfByte_cnt, hsucc, byteLimit_congr src (e := s.enc) (by simp)]
    omega
  · have hentry := ticksLeft_of_entry (e := goTo next { s.enc with period := 0 }) rfl hl (hhalf hl)
    rw [goTo_mstage] at hentry
    omega

theorem exec_mzfTick_ticksLeft {s t : State} (h : exec .mzfTick s = .next t) (hs : StateInv s)
    (hlive : mzfLive s.enc = true) : ticksLeft t.enc < ticksLeft s.enc := by
  rcases exec_mzfTick_cases h with ⟨k, n, next, hrow, rfl⟩ | ⟨src, next, hrow, rfl⟩ | ⟨hrow, _⟩
  · exact pulseStage_ticksLeft hrow hs.mzf_cursor
  · exact byteStage_ticksLeft hrow hs.mzf_cursor
  · have := mzfTable_terminal hrow
    have := hs.transmits_of_live hlive
    omega

/-! ### The session ends -/

theorem mzfTick_reaches_terminal (m : Nat) : ∀ s : State, StateInv s → mzfLive s.enc = true → ticksLeft s.enc ≤ m →
    ∃ n ps t, n ≤ m ∧ repeatExec .mzfTick n s = .next (ps, t) ∧ t.enc.task = 2 ∧ t.enc.mstage = 16 := by
  induction m with
  | zero =>
    intro s hs hlive hm
    obtain ⟨t, ht⟩ := exec_completes .mzfTick s
    exact absurd (exec_mzfTick_ticksLeft ht hs hlive) (by omega)
  | succ m ih =>
    intro s hs hlive hm
    obtain ⟨t, ht⟩ := exec_completes .mzfTick s
    have hless := exec_mzfTick_ticksLeft ht hs hlive
    cases hnow : mzfLive t.enc with
    | true =>
      obtain ⟨n, ps, u, hn, hrun, hend⟩ := ih t (exec_mzfTick_keeps_inv ht hs) hnow (by omega)
      exact ⟨n + 1, _, u, Nat.succ_le_succ hn, repeatExec_succ ht hrun, hend⟩
    | false =>
      have hterm := mzfLive_eq_false_iff.1 hnow
      have htask := (exec_mzfTick_handOff ht).2
      rw [hterm] at htask
      exact ⟨1, _, t, Nat.succ_le_succ (Nat.zero_le m), repeatExec_one ht, htask, hterm⟩

/-- Settles O52. -/
theorem mzfSessionTerminates : Obligations.MzfSessionTerminates :=
  fun s hs hlive => mzfTick_reaches_terminal _ s hs hlive (ticksLeft_le hs)

end Sys2Proof.Machine
end

section
/-! The wire encodings (30_encoding.md R99 to R103): reading a frame back, lengths and durations. -/

namespace Sys2Proof.Machine

/-! ### Reading a frame back -/

/-- A receiver's shift register after the eight bits of a byte. -/
theorem foldl_bitsMsbFirst : ∀ b : Byte,
    ((bitsMsbFirst b).map mzfKind).foldl (fun (acc : Byte) k => acc <<< 1 ||| if k = .long then 1 else 0) 0 = b := by
  decide

/-- Settles O54: the frame has eight data pulses of the two kinds, and their bits are the byte. -/
theorem mzfFrameReadsBack : Obligations.MzfFrameReadsBack := by
  intro b
  have hlen : ((bitsMsbFirst b).map mzfKind).length = 8 := by rw [List.length_map]; rfl
  have hkinds : ∀ k ∈ (bitsMsbFirst b).map mzfKind, k = .long ∨ k = .short := by
    intro k hk
    obtain ⟨bit, _, rfl⟩ := List.mem_map.1 hk
    cases bit with
    | false => exact .inr rfl
    | true => exact .inl rfl
  rw [mzfFrame, readMzfFrame, if_pos ⟨hlen, hkinds⟩, foldl_bitsMsbFirst]

/-! ### Lengths -/

theorem length_mzfFrame (b : Byte) : (mzfFrame b).length = 9 := by
  rw [mzfFrame, List.length_cons, List.length_map]; rfl

theorem length_flatMap_mzfFrame (bs : List Byte) : (bs.flatMap mzfFrame).length = 9 * bs.length := by
  induction bs with
  | nil => rfl
  | cons b bs ih => rw [List.flatMap_cons, List.length_append, length_mzfFrame, ih, List.length_cons]; ring

theorem length_checksumFrames (x : Word) : (checksumFrames x).length = 18 := by
  rw [checksumFrames, List.length_append, length_mzfFrame, length_mzfFrame]

theorem length_caqFrameHalves (b : Byte) : (caqFrameHalves b).length = 44 := rfl

/-- Settles O55. -/
theorem transmissionLengths : Obligations.TransmissionLengths := by
  refine ⟨fun b => ⟨length_mzfFrame b, length_caqFrameHalves b⟩, fun header body hheader => ?_⟩
  simp only [mzfTransmission, mzfPreamble, List.length_append, List.length_replicate, length_flatMap_mzfFrame,
    length_checksumFrames, hheader, Config.nLgap, Config.nLtmL, Config.nLtmS, Config.nLtmE, Config.nSgap, Config.nStmL,
    Config.nStmS, Config.nStmE]
  omega

/-! ### Durations (70_reset_and_hazards.md R301) -/

theorem duration_append (ps qs : List Period) : duration (ps ++ qs) = duration ps + duration qs := by
  rw [duration, List.map_append, List.sum_append]; rfl

/-- Where each bit `x` lasts `f x`, the ones last `f true` each and the zeros `f false`. -/
theorem duration_flatMap_bits (f : Bool → List Period) (bits : List Bool) :
    duration (bits.flatMap f) = bits.count true * duration (f true) + bits.count false * duration (f false) := by
  induction bits with
  | nil => rw [List.flatMap_nil, List.count_nil, List.count_nil, Nat.zero_mul, Nat.zero_mul]; rfl
  | cons x bits ih =>
    rw [List.flatMap_cons, duration_append, ih]
    cases x <;> simp only [List.count_cons, beq_self_eq_true, if_true, show (true == false) = false from rfl,
      show (false == true) = false from rfl, Bool.false_eq_true, if_false] <;> ring

theorem popcount8_eq_count (b : Byte) : popcount8 b = (bitsMsbFirst b).count true := by
  revert b; decide

theorem count_false_bitsMsbFirst (b : Byte) : (bitsMsbFirst b).count false = 8 - popcount8 b := by
  revert b; decide

theorem duration_mzfFrame (b : Byte) :
    duration (halves (mzfFrame b)) =
      (1 + popcount8 b) * (Config.tLU.toNat + Config.tLD.toNat) +
      (8 - popcount8 b) * (Config.tSU.toNat + Config.tSD.toNat) := by
  have hpulse (k : PulseKind) : duration [up k, down k] = (up k).toNat + (down k).toNat := by simp [duration]
  have hbits : halves ((bitsMsbFirst b).map mzfKind) = (bitsMsbFirst b).flatMap fun bit => pulseHalves (mzfKind bit) :=
    List.flatMap_map _ _ _
  rw [mzfFrame, halves_cons, duration_append, hbits, duration_flatMap_bits, ← popcount8_eq_count,
    count_false_bitsMsbFirst, pulseHalves, pulseHalves, hpulse, hpulse, hpulse]
  simp only [up, down, mzfKind, if_true, Bool.false_eq_true, if_false]
  ring

theorem duration_caqBitHalves (bit : Bool) : duration (caqBitHalves bit) = 4 * (up (caqKind bit)).toNat := by
  rw [caqBitHalves_eq]
  simp only [duration, List.cons_append, List.nil_append, List.map_cons, List.map_nil, List.sum_cons, List.sum_nil]
  ring

theorem duration_caqFrame (b : Byte) :
    duration (caqFrameHalves b) =
      4 * Config.tSpace.toNat * (9 - popcount8 b) + 4 * Config.tMark.toNat * (2 + popcount8 b) := by
  have hle := popcount8_le b
  rw [caqFrameHalves_eq, lowBits_seven, duration_append, duration_append, duration_append, duration_flatMap_bits,
    ← popcount8_eq_count, count_false_bitsMsbFirst, duration_caqBitHalves, duration_caqBitHalves,
    show 9 - popcount8 b = 1 + (8 - popcount8 b) by omega]
  simp only [up, caqKind, if_true, Bool.false_eq_true, if_false]
  ring

/-- Settles O56. -/
theorem frameDurations : Obligations.FrameDurations := fun b => ⟨duration_mzfFrame b, duration_caqFrame b⟩

end Sys2Proof.Machine
end

section
/-! A whole MZF session on the reference source (30_encoding.md R103, 43_mzf.md R184, R185): each stage is one leg of the
run, and the legs make the transmission. -/

namespace Sys2Proof.Machine

/-! ### Waves -/

theorem wave_append (ps qs : List Period) : wave (ps ++ qs) = wave ps ++ wave qs := List.filter_append ..

theorem wave_halves (ks : List PulseKind) : wave (halves ks) = halves ks := by
  refine List.filter_eq_self.2 fun p hp => decide_eq_true ?_
  obtain ⟨k, _, hk⟩ := List.mem_flatMap.1 hp
  simp only [pulseHalves, List.mem_cons, List.not_mem_nil, or_false] at hk
  obtain rfl | rfl := hk
  · exact up_ne_zero k
  · exact down_ne_zero k

theorem wave_zero : wave [0] = [] := rfl

/-! ### Legs -/

theorem MzfFrame.refl (s : State) : MzfFrame s s := by constructor <;> rfl

theorem MzfFrame.trans {s t u : State} (h : MzfFrame s t) (h' : MzfFrame t u) : MzfFrame s u where
  cstage := h'.cstage.trans h.cstage
  bidx := h'.bidx.trans h.bidx
  ccyc := h'.ccyc.trans h.ccyc
  hcs := h'.hcs.trans h.hcs
  blen := h'.blen.trans h.blen
  savedBaud := h'.savedBaud.trans h.savedBaud
  ovr := h'.ovr.trans h.ovr
  blockId := h'.blockId.trans h.blockId
  hdr := h'.hdr.trans h.hdr
  baud := h'.baud.trans h.baud
  inputs := h'.inputs.trans h.inputs
  freeCtr := h'.freeCtr.trans h.freeCtr

theorem mzfTick_run_frame {n : Nat} {s t : State} {ps : List Period} (h : repeatExec .mzfTick n s = .next (ps, t)) :
    MzfFrame s t :=
  repeatExec_keeps (P := MzfFrame s) (fun hexec hs => hs.trans (mzfTick_frame_regs hexec)) h (.refl s)

theorem MzfFrame.headerBytes {s t : State} (h : MzfFrame s t) : headerBytes t = headerBytes s :=
  headerBytes_congr (memRead_congr h.hdr h.freeCtr)

/-- `n` ticks lead from `s` to `t` and emit the pulses `ks`. -/
def Leg (s : State) (n : Nat) (ks : List PulseKind) (t : State) : Prop :=
  ∃ ps, repeatExec .mzfTick n s = .next (ps, t) ∧ wave ps = halves ks

theorem Leg.of_halves {s t : State} {n : Nat} {ks : List PulseKind}
    (h : repeatExec .mzfTick n s = .next (halves ks, t)) : Leg s n ks t := ⟨_, h, wave_halves ks⟩

theorem Leg.refl (s : State) : Leg s 0 [] s := ⟨[], rfl, rfl⟩

theorem Leg.trans {s t u : State} {m n : Nat} {ks ks' : List PulseKind} (h : Leg s m ks t) (h' : Leg t n ks' u) :
    Leg s (m + n) (ks ++ ks') u := by
  obtain ⟨ps, hrun, hwave⟩ := h
  obtain ⟨qs, hrun', hwave'⟩ := h'
  exact ⟨ps ++ qs, repeatExec_append hrun hrun', by rw [wave_append, hwave, hwave', halves_append]⟩

/-- A zero tick after a leg adds a tick and no pulse. -/
theorem Leg.zero_tick {s t u : State} {n : Nat} {ks : List PulseKind} (h : Leg s n ks t)
    (hexec : exec .mzfTick t = .next u) (hz : u.enc.period = 0) : Leg s (n + 1) ks u := by
  obtain ⟨ps, hrun, hwave⟩ := h
  refine ⟨ps ++ [u.enc.period], repeatExec_append hrun (repeatExec_one hexec), ?_⟩
  rw [wave_append, hwave, hz, wave_zero, List.append_nil]

theorem Leg.frame {s t : State} {n : Nat} {ks : List PulseKind} (h : Leg s n ks t) : MzfFrame s t := by
  obtain ⟨_, hrun, _⟩ := h
  exact mzfTick_run_frame hrun

/-- In stage `c` between pulses, with no byte in progress. -/
structure Between (c : BitVec 5) (s : State) : Prop where
  stage : s.enc.mstage = c
  unloaded : s.enc.loaded = false
  half : s.enc.phalf = false

/-- At the entry to stage `c`. -/
structure AtEntry (c : BitVec 5) (s : State) : Prop extends Between c s where
  count : s.enc.cnt = 0

/-- A leg that neither asks the byte source nor writes `TASK`. -/
structure QuietLeg (s : State) (n : Nat) (ks : List PulseKind) (t : State) : Prop where
  leg : Leg s n ks t
  source : t.source = s.source
  task : t.enc.task = s.enc.task

theorem QuietLeg.trans {s t u : State} {m n : Nat} {ks ks' : List PulseKind} (h : QuietLeg s m ks t)
    (h' : QuietLeg t n ks' u) : QuietLeg s (m + n) (ks ++ ks') u :=
  ⟨h.leg.trans h'.leg, h'.source.trans h.source, h'.task.trans h.task⟩

/-! ### A pulse-counted stage is a leg -/

theorem pulses_leg {c next : BitVec 5} {k : PulseKind} {n : Nat} (hrow : mzfTable c = .pulses k n next) {s : State}
    (hs : AtEntry c s) :
    ∃ t, QuietLeg s (2 * n) (List.replicate n k) t ∧ AtEntry next t ∧
      t.enc.fcs = if next = 12 then 0 else s.enc.fcs :=
  ⟨_, ⟨.of_halves (pulseStageLastsTwiceItsCount c k n next hrow s hs.stage hs.count hs.half), rfl, rfl⟩,
    ⟨⟨rfl, hs.unloaded, hs.half⟩, rfl⟩, rfl⟩

/-! ### A stage that finds its bytes in the registers -/

/-- The bytes a stage finds in the registers. -/
def cachedBytes : ByteSource → State → List Byte
  | .header, s => headerBytes s
  | .headerChecksum, s => [highByte s.enc.hcs, lowByte s.enc.hcs]
  | .body, _ => []
  | .bodyChecksum, s => [highByte s.enc.fcs, lowByte s.enc.fcs]

theorem length_headerBytes (s : State) : (headerBytes s).length = 128 := by
  rw [headerBytes, List.length_map, List.length_range]

theorem getElem?_headerBytes {s : State} {i : Nat} (h : i < 128) :
    (headerBytes s)[i]? = some (memRead s (Fin.ofNat Config.nHdr i)) := by
  rw [headerBytes, List.getElem?_map, List.getElem?_range h]; rfl

theorem getElem?_checksum_bytes (x cnt : Word) : [highByte x, lowByte x][cnt.toNat]? = checksumByte x cnt := by
  by_cases h : 2 ≤ cnt.toNat
  · rw [checksumByte_eq_none h, List.getElem?_eq_none h]
  · have hcnt : cnt = 0 ∨ cnt = 1 := by
      have hlt : cnt.toNat < 2 := Nat.lt_of_not_le h
      exact (show cnt.toNat = 0 ∨ cnt.toNat = 1 by omega).imp (fun h0 => BitVec.eq_of_toNat_eq h0)
        fun h1 => BitVec.eq_of_toNat_eq h1
    obtain rfl | rfl := hcnt <;> rfl

theorem nextByte_cached {src : ByteSource} (hsrc : src ≠ .body) (s : State) :
    nextByte src s = ((cachedBytes src s)[s.enc.cnt.toNat]?, s) := by
  cases src with
  | header =>
    by_cases h : s.enc.cnt.toNat < 128
    · rw [cachedBytes, getElem?_headerBytes h, nextByte, if_pos h]
    · rw [nextByte_of_limit_le (Nat.le_of_not_lt h), cachedBytes,
        List.getElem?_eq_none (by rw [length_headerBytes]; omega)]
  | headerChecksum => rw [cachedBytes, getElem?_checksum_bytes]; rfl
  | body => exact absurd rfl hsrc
  | bodyChecksum => rw [cachedBytes, getElem?_checksum_bytes]; rfl

theorem cachedBytes_congr (src : ByteSource) {s t : State} (hf : MzfFrame s t) (hfcs : t.enc.fcs = s.enc.fcs) :
    cachedBytes src t = cachedBytes src s := by
  cases src with
  | header => exact hf.headerBytes
  | headerChecksum => rw [cachedBytes, cachedBytes, hf.hcs]
  | body => rfl
  | bodyChecksum => rw [cachedBytes, cachedBytes, hfcs]

theorem cnt_add_one_toNat {cnt : Word} {m : Nat} (h : cnt.toNat < m) (hm : m ≤ 65535) :
    (cnt + 1).toNat = cnt.toNat + 1 := by
  rw [BitVec.toNat_add, show (1 : Word).toNat = 1 from rfl]
  omega

/-- The frames of the `n` bytes from number `CNT` on. -/
theorem cached_frames {src : ByteSource} {c next : BitVec 5} (hsrc : src ≠ .body) (hrow : mzfTable c = .bytes src next)
    {bs : List Byte} (hbs : bs.length ≤ 65535) (n : Nat) : ∀ {s : State}, Between c s → cachedBytes src s = bs →
    s.enc.cnt.toNat + n = bs.length →
    ∃ t, QuietLeg s (18 * n) ((bs.drop s.enc.cnt.toNat).flatMap mzfFrame) t ∧ Between c t ∧ t.enc.fcs = s.enc.fcs ∧
      t.enc.cnt.toNat = bs.length := by
  induction n with
  | zero =>
    intro s hs _ hcnt
    have hnil : bs.drop s.enc.cnt.toNat = [] := List.drop_eq_nil_of_le (Nat.le_of_eq hcnt.symm)
    rw [hnil]
    exact ⟨s, ⟨.refl s, rfl, rfl⟩, hs, rfl, hcnt⟩
  | succ n ih =>
    intro s hs hcached hcnt
    have hlt : s.enc.cnt.toNat < bs.length := by omega
    have hsucc := cnt_add_one_toNat hlt hbs
    have hn : nextByte src s = (some bs[s.enc.cnt.toNat], s) := by
      rw [nextByte_cached hsrc, hcached, List.getElem?_eq_getElem hlt]
    have hbyte := mzfTick_byte (hs.stage ▸ hrow) hs.unloaded hs.half hn
    rw [accumulate_of_ne_body hsrc] at hbyte
    have hcached' := (cachedBytes_congr src (mzfTick_run_frame hbyte) rfl).trans hcached
    obtain ⟨t, hleg, hbetween, hfcs, hend⟩ := ih (s := s.setEnc (frameSent (loadMzfByte _ s.enc))) ⟨hs.stage, rfl, rfl⟩
      hcached' (by rw [setEnc_enc, frameSent, loadMzfByte_cnt, hsucc]; omega)
    refine ⟨t, ⟨?_, hleg.source, hleg.task⟩, hbetween, hfcs, hend⟩
    have hrest := hleg.leg
    rw [setEnc_enc, frameSent, loadMzfByte_cnt, hsucc] at hrest
    rw [List.drop_eq_getElem_cons hlt, List.flatMap_cons, show 18 * (n + 1) = 18 + 18 * n by ring]
    exact Leg.trans (.of_halves hbyte) hrest

/-- The zero tick of a stage that finds no byte. -/
theorem exec_mzfTick_exhaust {c next : BitVec 5} {src : ByteSource} (hrow : mzfTable c = .bytes src next) {s s' : State}
    (hs : Between c s) (hn : nextByte src s = (none, s')) :
    ∃ t, exec .mzfTick s = .next t ∧ t.enc.period = 0 ∧ AtEntry next t ∧ t.source = s'.source ∧
      t.enc.task = (if next = 16 then 2 else s.enc.task) ∧ t.enc.fcs = (if next = 12 then 0 else s.enc.fcs) := by
  have hs' : s'.enc = s.enc := (nextByte_frame hn).1
  have hexec := exec_mzfTick_bytes (hs.stage ▸ hrow)
  rw [byteStage_exhaust next hs.unloaded hn] at hexec
  refine ⟨_, hexec, rfl, ⟨⟨rfl, ?_, ?_⟩, rfl⟩, rfl, ?_, ?_⟩ <;> rw [mapEnc_enc, hs']
  · exact hs.unloaded
  · exact hs.half
  · rfl
  · rfl

/-- The frames of all the bytes of a stage. -/
theorem cached_stage_frames {src : ByteSource} {c next : BitVec 5} (hsrc : src ≠ .body)
    (hrow : mzfTable c = .bytes src next) {s : State} (hs : AtEntry c s) {bs : List Byte}
    (hcached : cachedBytes src s = bs) (hbs : bs.length ≤ 65535) :
    ∃ t, QuietLeg s (18 * bs.length) (bs.flatMap mzfFrame) t ∧ Between c t ∧ t.enc.fcs = s.enc.fcs ∧
      nextByte src t = (none, t) := by
  have hzero : s.enc.cnt.toNat = 0 := by rw [hs.count]; rfl
  obtain ⟨t, hleg, hbetween, hfcs, hend⟩ :=
    cached_frames hsrc hrow hbs bs.length hs.toBetween hcached (by rw [hzero, Nat.zero_add])
  rw [hzero, List.drop_zero] at hleg
  refine ⟨t, hleg, hbetween, hfcs, ?_⟩
  rw [nextByte_cached hsrc, cachedBytes_congr src hleg.leg.frame hfcs, hcached, hend, List.getElem?_eq_none le_rfl]

/-- A stage that finds its bytes in the registers, to the entry of the next, is a leg. -/
theorem cached_leg {src : ByteSource} {c next : BitVec 5} (hsrc : src ≠ .body) (hrow : mzfTable c = .bytes src next)
    (hnext : next ≠ 16) {s : State} (hs : AtEntry c s) {bs : List Byte} (hcached : cachedBytes src s = bs)
    (hbs : bs.length ≤ 65535) :
    ∃ t, QuietLeg s (18 * bs.length + 1) (bs.flatMap mzfFrame) t ∧ AtEntry next t := by
  obtain ⟨u, hleg, hbetween, _, hnone⟩ := cached_stage_frames hsrc hrow hs hcached hbs
  obtain ⟨t, hexec, hz, hentry, hsource, htask, _⟩ := exec_mzfTick_exhaust hrow hbetween hnone
  rw [if_neg hnext] at htask
  exact ⟨t, ⟨hleg.leg.zero_tick hexec hz, hsource.trans hleg.source, htask.trans hleg.task⟩, hentry⟩

/-! ### The body -/

theorem foldl_ckAdd (bs : List Byte) : ∀ as : List Byte, bs.foldl ckAdd (checksum as) = checksum (as ++ bs) := by
  induction bs with
  | nil => intro as; rw [List.append_nil]; rfl
  | cons b bs ih =>
    intro as
    rw [List.foldl_cons, ← checksum_append_singleton, ih, List.append_assoc, List.singleton_append]

/-- The frames of the `n` bytes that `BLEN` still asks for, as far as the image has them. -/
theorem body_frames {img : List Byte} {ok : Bool} (n : Nat) : ∀ {p : Nat} {s : State} {bs : List Byte}, Between 12 s →
    s.source = .image img p ok → p ≤ img.length → s.enc.cnt.toNat + n = s.enc.blen.toNat → bs = (img.drop p).take n →
    ∃ t, Leg s (18 * bs.length) (bs.flatMap mzfFrame) t ∧ Between 12 t ∧ t.enc.fcs = bs.foldl ckAdd s.enc.fcs ∧
      t.source = .image img (p + bs.length) ok ∧ t.enc.task = s.enc.task ∧
      ∃ t', nextByte .body t = (none, t') ∧ t'.source = t.source := by
  induction n with
  | zero =>
    rintro p s _ hs hsrc _ hcnt rfl
    exact ⟨s, .refl s, hs, rfl, hsrc, rfl, s, nextByte_of_limit_le (Nat.le_of_eq hcnt.symm), rfl⟩
  | succ n ih =>
    rintro p s _ hs hsrc hp hcnt rfl
    have hmore : s.enc.cnt < s.enc.blen := show s.enc.cnt.toNat < s.enc.blen.toNat by omega
    obtain hlt | rfl := Nat.lt_or_eq_of_le hp
    · have hread : s.source.read = (some img[p], .image img (p + 1) ok) := by rw [hsrc, read_image_lt hlt]
      have hbyte := mzfTick_byte (src := .body) (next := 13) (by rw [hs.stage]; rfl) hs.unloaded hs.half
        (nextByte_body_read hmore hread)
      have hsucc := cnt_add_one_toNat (m := s.enc.blen.toNat) hmore (Nat.le_of_lt_succ s.enc.blen.isLt)
      obtain ⟨t, hleg, hbetween, hfcs, hsource, htask, hnone⟩ := ih
        (s := ((s.setSource (.image img (p + 1) ok)).addEvent (.read (some img[p]))).setEnc
          (frameSent (accumulate .body img[p] (loadMzfByte img[p] s.enc)))) ⟨hs.stage, rfl, rfl⟩ rfl hlt
        (show (s.enc.cnt + 1).toNat + n = s.enc.blen.toNat by omega) rfl
      rw [List.drop_eq_getElem_cons hlt, List.take_succ_cons, List.length_cons, List.flatMap_cons, List.foldl_cons,
        Nat.mul_succ, Nat.add_comm _ 18]
      have hpos (m : Nat) : p + 1 + m = p + (m + 1) := by omega
      exact ⟨t, Leg.trans (.of_halves hbyte) hleg, hbetween, hfcs, hpos _ ▸ hsource, htask, hnone⟩
    · have hread : s.source.read = (none, .image img img.length ok) := by rw [hsrc, read_image_ge le_rfl]
      rw [List.drop_length, List.take_nil]
      exact ⟨s, .refl s, hs, rfl, hsrc, rfl, _, nextByte_body_fail hmore hread, hsrc.symm⟩

/-! ### The preamble -/

theorem flatMap_mzfFrame_checksum (x : Word) : [highByte x, lowByte x].flatMap mzfFrame = checksumFrames x := by
  rw [checksumFrames, List.flatMap_cons, List.flatMap_cons, List.flatMap_nil, List.append_nil]

/-- HDR1 and HCS1, or HDR2 and HCS2: the header and its checksum once. -/
theorem header_leg {c1 c2 next : BitVec 5} {header : List Byte} (hrow1 : mzfTable c1 = .bytes .header c2)
    (hrow2 : mzfTable c2 = .bytes .headerChecksum next) (hc2 : c2 ≠ 16) (hnext : next ≠ 16) {s : State}
    (hs : AtEntry c1 s) (hheader : headerBytes s = header) (hhcs : s.enc.hcs = checksum header) :
    ∃ t u, QuietLeg s (18 * 128 + 1) (header.flatMap mzfFrame) t ∧
      QuietLeg t (18 * 2 + 1) (checksumFrames (checksum header)) u ∧ AtEntry next u := by
  have hlen : header.length = 128 := hheader ▸ length_headerBytes s
  obtain ⟨t, hleg1, ht⟩ := cached_leg (by decide) hrow1 hc2 hs hheader (by omega)
  have hsum : cachedBytes .headerChecksum t = [highByte (checksum header), lowByte (checksum header)] := by
    rw [cachedBytes, hleg1.leg.frame.hcs, hhcs]
  obtain ⟨u, hleg2, hu⟩ := cached_leg (by decide) hrow2 hnext ht hsum (by simp)
  rw [flatMap_mzfFrame_checksum] at hleg2
  rw [hlen] at hleg1
  exact ⟨t, u, hleg1, hleg2, hu⟩

/-- Everything before the body: twelve stages. -/
theorem preamble_leg {header : List Byte} {s : State} (hs : AtEntry 0 s) (hheader : headerBytes s = header)
    (hhcs : s.enc.hcs = checksum header) :
    ∃ t, QuietLeg s 70928 (mzfPreamble header) t ∧ AtEntry 12 t ∧ t.enc.fcs = 0 := by
  obtain ⟨s1, l1, e1, _⟩ := pulses_leg (c := 0) (n := Config.nLgap) rfl hs
  obtain ⟨s2, l2, e2, _⟩ := pulses_leg (c := 1) (n := Config.nLtmL) rfl e1
  obtain ⟨s3, l3, e3, _⟩ := pulses_leg (c := 2) (n := Config.nLtmS) rfl e2
  obtain ⟨s4, l4, e4, _⟩ := pulses_leg (c := 3) (n := Config.nLtmE) rfl e3
  have hleader := ((l1.trans l2).trans l3).trans l4
  obtain ⟨s5, s6, l5, l6, e6⟩ := header_leg rfl rfl (by decide) (by decide) e4
    (hleader.leg.frame.headerBytes.trans hheader) (hleader.leg.frame.hcs.trans hhcs)
  have hfirst := (hleader.trans l5).trans l6
  obtain ⟨s7, s8, l7, l8, e8⟩ := header_leg rfl rfl (by decide) (by decide) e6
    (hfirst.leg.frame.headerBytes.trans hheader) (hfirst.leg.frame.hcs.trans hhcs)
  obtain ⟨s9, l9, e9, _⟩ := pulses_leg (c := 8) (n := Config.nSgap) rfl e8
  obtain ⟨s10, l10, e10, _⟩ := pulses_leg (c := 9) (n := Config.nStmL) rfl e9
  obtain ⟨s11, l11, e11, _⟩ := pulses_leg (c := 10) (n := Config.nStmS) rfl e10
  obtain ⟨s12, l12, e12, hfcs⟩ := pulses_leg (c := 11) (n := Config.nStmE) rfl e11
  exact ⟨s12, (((((hfirst.trans l7).trans l8).trans l9).trans l10).trans l11).trans l12, e12, hfcs⟩

/-! ### The session -/

/-- Up to the last byte of the checksum: the next tick ends the session. -/
theorem transmission_leg {img header body : List Byte} {ok : Bool} {p : Nat} {s : State} (hs : AtEntry 0 s)
    (hheader : headerBytes s = header) (hhcs : s.enc.hcs = checksum header) (hsrc : s.source = .image img p ok)
    (hp : p ≤ img.length) (hbody : body = (img.drop p).take s.enc.blen.toNat) :
    ∃ t, Leg s (70965 + 18 * body.length) (mzfTransmission header body) t ∧ Between 13 t ∧
      t.enc.fcs = checksum body ∧ t.source = .image img (p + body.length) ok ∧ t.enc.task = s.enc.task ∧
      nextByte .bodyChecksum t = (none, t) := by
  obtain ⟨s1, hpre, e1, hfcs1⟩ := preamble_leg hs hheader hhcs
  have hcnt : s1.enc.cnt.toNat + s.enc.blen.toNat = s1.enc.blen.toNat := by
    rw [e1.count, hpre.leg.frame.blen]; exact Nat.zero_add _
  obtain ⟨s2, hframes, hbetween2, hfcs2, hsrc2, htask2, s2', hnone2, hsrc2'⟩ :=
    body_frames s.enc.blen.toNat e1.toBetween (hpre.source.trans hsrc) hp hcnt hbody
  obtain ⟨s3, hexec3, hz3, e3, hsrc3, htask3, hfcs3⟩ := exec_mzfTick_exhaust rfl hbetween2 hnone2
  have hsum : s3.enc.fcs = checksum body :=
    hfcs3.trans (hfcs2.trans (by rw [hfcs1, ← checksum_nil, foldl_ckAdd]; rfl))
  have hcached : cachedBytes .bodyChecksum s3 = [highByte (checksum body), lowByte (checksum body)] := by
    rw [cachedBytes, hsum]
  obtain ⟨s4, hlast, hbetween4, hfcs4, hnone4⟩ := cached_stage_frames (by decide) rfl e3 hcached (by simp)
  have hleg := (hpre.leg.trans (hframes.zero_tick hexec3 hz3)).trans hlast.leg
  rw [flatMap_mzfFrame_checksum] at hleg
  refine ⟨s4, ?_, hbetween4, hfcs4.trans hsum, hlast.source.trans (hsrc3.trans (hsrc2'.trans hsrc2)),
    hlast.task.trans (htask3.trans (htask2.trans hpre.task)), hnone4⟩
  have hticks : 70928 + (18 * body.length + 1) + 18 * [highByte (checksum body), lowByte (checksum body)].length =
      70965 + 18 * body.length := by rw [List.length_cons, List.length_singleton]; ring
  rw [← hticks, mzfTransmission]
  exact hleg

theorem exec_mzfTick_terminal {s t : State} (h : exec .mzfTick s = .next t) (hs : 13 < s.enc.mstage.toNat) :
    13 < t.enc.mstage.toNat := by
  rw [exec_mzfTick, runMzfRow_of_terminal hs] at h
  cases h
  exact hs

/-- A tick leaves `TASK` PLAY but by ending the session. -/
theorem exec_mzfTick_playing {s t : State} (h : exec .mzfTick s = .next t) (hs : s.enc.task = 1) :
    t.enc.task = 1 ∨ 13 < t.enc.mstage.toNat := by
  by_cases hterm : 13 < t.enc.mstage.toNat
  · exact .inr hterm
  · exact .inl ((exec_mzfTick_handOff h).2.trans ((if_neg hterm).trans hs))

theorem append_toNat (hi lo : Byte) : (hi ++ lo : Word).toNat = lo.toNat + 256 * hi.toNat := by
  have := lo.isLt
  rw [BitVec.toNat_append, Nat.shiftLeft_eq, Nat.mul_comm, ← Nat.two_pow_add_eq_or_of_lt this]
  omega

/-- Settles O51: MZF_INIT caches the header, the transmission follows, and one more tick enters TERMINAL. -/
theorem mzfSessionSendsTheTransmission : Obligations.MzfSessionSendsTheTransmission := by
  intro s img p body hsrc hlen hbody
  obtain ⟨s0, hinit, hread, henc, hbaud, _, hsource, _⟩ := mzfInitReadsTheHeader s img p hsrc hlen
  have hentry : AtEntry 0 s0 := ⟨⟨(congrArg Enc.mstage henc :), (congrArg Enc.loaded henc :), (congrArg Enc.phalf henc :)⟩,
    (congrArg Enc.cnt henc :)⟩
  have hplay : s0.enc.task = 1 := (congrArg Enc.task henc :)
  have hblock : s0.enc.blockId = 1 := (congrArg Enc.blockId henc :)
  have hheader : headerBytes s0 = img.take 128 :=
    headerBytes_eq (List.length_take_of_le hlen) fun i => (hread i).trans (List.getElem?_take_of_lt i.isLt).symm
  have hblen : s0.enc.blen.toNat = (img.getD 18 0).toNat + 256 * (img.getD 19 0).toNat := by
    rw [← append_toNat]; exact (congrArg (fun e => e.blen.toNat) henc :)
  obtain ⟨t, ⟨ps, hrun, hwave⟩, ht, hfcs, hsource_t, htask, hnone⟩ := transmission_leg (body := body) hentry hheader
    (congrArg Enc.hcs henc :) hsource hlen (hblen ▸ hbody)
  obtain ⟨u, hlast, hz, hu, hsource_u, htask_u, hfcs_u⟩ := exec_mzfTick_exhaust rfl ht hnone
  have hall := repeatExec_append hrun (repeatExec_one hlast)
  have hframe := mzfTick_run_frame hall
  have hlive : ¬ 13 < t.enc.mstage.toNat := by rw [ht.stage]; decide
  refine ⟨s0, _, u, hinit, (by rw [Nat.add_right_comm] at hall; exact hall), ?_, hu.stage, htask_u,
    hframe.blockId.trans hblock, hfcs_u.trans hfcs, hframe.baud.trans hbaud, hsource_u.trans hsource_t, fun k hk => ?_⟩
  · rw [wave_append, hwave, hz, wave_zero, List.append_nil]
  · exact repeatExec_all_along exec_mzfTick_terminal exec_mzfTick_playing hrun hplay hlive (by omega)

end Sys2Proof.Machine
end

section
/-! The wave of a session depends on the byte source alone (45_session.md R239): two machines with sources alike stay
alike in everything their ticks look at. -/

namespace Sys2Proof.Machine

/-- Two runs in lockstep whose states stay related and whose ticks emit alike. -/
theorem repeatExec_lockstep {i : Instr} {R : State → State → Prop}
    (hstep : ∀ {s s' t t'}, exec i s = .next t → exec i s' = .next t' → R s s' →
      R t t' ∧ t'.enc.period = t.enc.period) {n : Nat} :
    ∀ {s s' t t' : State} {ps ps' : List Period}, repeatExec i n s = .next (ps, t) →
      repeatExec i n s' = .next (ps', t') → R s s' → ps' = ps := by
  induction n with
  | zero => intro s s' t t' ps ps' h h' _; cases h; cases h'; rfl
  | succ n ih =>
    intro s s' t t' ps ps' h h' hR
    obtain ⟨u, hu⟩ := exec_completes i s
    obtain ⟨u', hu'⟩ := exec_completes i s'
    obtain ⟨qs, v, hv⟩ := repeatExec_completes i n u
    obtain ⟨qs', v', hv'⟩ := repeatExec_completes i n u'
    rw [repeatExec_succ hu hv] at h
    rw [repeatExec_succ hu' hv'] at h'
    cases h
    cases h'
    obtain ⟨hR', hperiod⟩ := hstep hu hu' hR
    rw [hperiod, ih hv hv' hR']

/-! ### MZF -/

/-- The registers an MZF tick looks at, the others cleared; `CUR` counts with a byte in progress, `HDR` by its reads. -/
def mzfView (e : Enc) : Enc :=
  { e with
    cur := if e.loaded then e.cur else 0
    cstage := 0, bidx := 0, ccyc := false, savedBaud := 0, ovr := false, blockId := 0, task := 0, hdr := [] }

theorem mzfView_pulseStage (k : PulseKind) (n : Nat) {next : BitVec 5} (hnext : next ≠ 16) (e : Enc) :
    mzfView (pulseStage k n next e) = pulseStage k n next (mzfView e) := by
  cases hp : e.phalf with
  | false => rw [pulseStage_up k n next hp, pulseStage_up k n next (e := mzfView e) hp]; rfl
  | true =>
    by_cases hn : e.cnt + 1 = BitVec.ofNat 16 n
    · rw [pulseStage_last k hp hn hnext, pulseStage_last k (e := mzfView e) hp hn hnext]; rfl
    · rw [pulseStage_count k next hp hn, pulseStage_count k next (e := mzfView e) hp hn]; rfl

theorem mzfView_load (src : ByteSource) (b : Byte) (e : Enc) :
    mzfView (accumulate src b (loadMzfByte b e)) = accumulate src b (loadMzfByte b (mzfView e)) := by
  cases src <;> rfl

theorem mzfView_goTo (next : BitVec 5) (e : Enc) :
    mzfView (goTo next { e with period := 0 }) = mzfView (goTo next { mzfView e with period := 0 }) := by
  cases hl : e.loaded <;> simp [mzfView, goTo, hl]

theorem mzfView_cur {e : Enc} (hl : e.loaded = true) : (mzfView e).cur = e.cur := if_pos hl

theorem mzfDataBit_view {e : Enc} (hl : e.loaded = true) : mzfDataBit (mzfView e) = mzfDataBit e := by
  simp only [mzfDataBit, mzfView_cur hl]; rfl

theorem mzfView_emitMzfBit {e : Enc} (hl : e.loaded = true) :
    mzfView (emitMzfBit e) = mzfView (emitMzfBit (mzfView e)) := by
  have hbit := mzfDataBit_view hl
  cases hlead : e.lead with
  | false =>
    cases hp : e.phalf with
    | false => rw [emitMzfBit_leader_up hlead hp, emitMzfBit_leader_up (e := mzfView e) hlead hp]; simp [mzfView, hl]
    | true => rw [emitMzfBit_leader_down hlead hp, emitMzfBit_leader_down (e := mzfView e) hlead hp]; simp [mzfView, hl]
  | true =>
    cases hp : e.phalf with
    | false =>
      rw [emitMzfBit_data_up hlead hp, emitMzfBit_data_up (e := mzfView e) hlead hp, hbit]; simp [mzfView, hl]
    | true =>
      by_cases hm : e.bmask = 0x01
      · rw [emitMzfBit_data_last hlead hp hm, emitMzfBit_data_last (e := mzfView e) hlead hp hm, hbit]; rfl
      · rw [emitMzfBit_data_down hlead hp hm, emitMzfBit_data_down (e := mzfView e) hlead hp hm, hbit]
        simp [mzfView, hl]

/-- Two states that an MZF tick does not tell apart. -/
structure MzfAlike (s t : State) : Prop where
  source : t.source = s.source
  view : mzfView t.enc = mzfView s.enc
  header : ∀ i, memRead t i = memRead s i

theorem checksumByte_alike {s t : State} (h : MzfAlike s t) :
    checksumByte t.enc.hcs t.enc.cnt = checksumByte s.enc.hcs s.enc.cnt ∧
    checksumByte t.enc.fcs t.enc.cnt = checksumByte s.enc.fcs s.enc.cnt := by
  have hcnt : t.enc.cnt = s.enc.cnt := (congrArg Enc.cnt h.view :)
  have hhcs : t.enc.hcs = s.enc.hcs := (congrArg Enc.hcs h.view :)
  have hfcs : t.enc.fcs = s.enc.fcs := (congrArg Enc.fcs h.view :)
  exact ⟨by rw [hcnt, hhcs], by rw [hcnt, hfcs]⟩

/-- Alike states give the same next byte and their sources stay alike. -/
theorem nextByte_alike (src : ByteSource) {s t : State} (h : MzfAlike s t) :
    (nextByte src t).1 = (nextByte src s).1 ∧ (nextByte src t).2.source = (nextByte src s).2.source := by
  have hcnt : t.enc.cnt = s.enc.cnt := (congrArg Enc.cnt h.view :)
  have hblen : t.enc.blen = s.enc.blen := (congrArg Enc.blen h.view :)
  obtain ⟨hhcs, hfcs⟩ := checksumByte_alike h
  cases src with
  | header => exact ⟨by simp only [nextByte, hcnt, h.header], h.source⟩
  | headerChecksum => exact ⟨hhcs, h.source⟩
  | bodyChecksum => exact ⟨hfcs, h.source⟩
  | body =>
    by_cases hlt : s.enc.cnt < s.enc.blen
    · have hlt' : t.enc.cnt < t.enc.blen := by rw [hcnt, hblen]; exact hlt
      have hread : t.source.read = s.source.read := by rw [h.source]
      cases hr : s.source.read with
      | mk a rest =>
        cases a with
        | none => rw [nextByte_body_fail hlt hr, nextByte_body_fail hlt' (hread.trans hr)]; exact ⟨rfl, rfl⟩
        | some b => rw [nextByte_body_read hlt hr, nextByte_body_read hlt' (hread.trans hr)]; exact ⟨rfl, rfl⟩
    · have hlt' : ¬ t.enc.cnt < t.enc.blen := by rw [hcnt, hblen]; exact hlt
      simp only [nextByte, if_neg hlt, if_neg hlt', h.source, and_self]

theorem byteStage_alike (src : ByteSource) (next : BitVec 5) {s t : State} (h : MzfAlike s t) :
    (byteStage src next t).source = (byteStage src next s).source ∧
    mzfView (byteStage src next t).enc = mzfView (byteStage src next s).enc := by
  have hloaded : t.enc.loaded = s.enc.loaded := (congrArg Enc.loaded h.view :)
  cases hl : s.enc.loaded with
  | true =>
    have hl' := hloaded.trans hl
    rw [byteStage_of_loaded src next hl, byteStage_of_loaded src next hl']
    refine ⟨h.source, ?_⟩
    rw [mapEnc_enc, mapEnc_enc, mzfView_emitMzfBit hl, mzfView_emitMzfBit hl', h.view]
  | false =>
    have hl' := hloaded.trans hl
    obtain ⟨hanswer, hsource⟩ := nextByte_alike src h
    cases hs : nextByte src s with
    | mk a s' =>
      cases ht : nextByte src t with
      | mk a' t' =>
        rw [hs, ht] at hanswer hsource
        have hviews : mzfView t'.enc = mzfView s'.enc := by rw [(nextByte_frame hs).1, (nextByte_frame ht).1, h.view]
        obtain rfl : a' = a := hanswer
        cases a' with
        | none =>
          rw [byteStage_exhaust next hl hs, byteStage_exhaust next hl' ht]
          refine ⟨hsource, ?_⟩
          rw [mapEnc_enc, mapEnc_enc, mzfView_goTo, hviews, ← mzfView_goTo]
        | some b =>
          have hload (e : Enc) : (accumulate src b (loadMzfByte b e)).loaded = true := by cases src <;> rfl
          rw [byteStage_load next hl hs, byteStage_load next hl' ht]
          refine ⟨hsource, ?_⟩
          rw [mapEnc_enc, mapEnc_enc, mzfView_emitMzfBit (hload _), mzfView_emitMzfBit (hload _), mzfView_load,
            mzfView_load, hviews]

/-- A tick keeps states alike: they run the same row. -/
theorem exec_mzfTick_alike {s s' t t' : State} (ht : exec .mzfTick s = .next t) (ht' : exec .mzfTick s' = .next t')
    (h : MzfAlike s s') : MzfAlike t t' := by
  have hframe := mzfTick_frame_regs ht
  have hframe' := mzfTick_frame_regs ht'
  have hstage : s'.enc.mstage = s.enc.mstage := (congrArg Enc.mstage h.view :)
  have hkeys : t'.source = t.source ∧ mzfView t'.enc = mzfView t.enc := by
    rw [exec_mzfTick] at ht ht'
    cases ht
    cases ht'
    rw [hstage]
    cases hrow : mzfTable s.enc.mstage with
    | pulses k n next =>
      have hnext : next ≠ 16 := fun h16 => by have := mzfTable_pulses hrow; rw [h16] at this; simp at this
      refine ⟨h.source, ?_⟩
      simp only [runMzfRow, mapEnc_enc, mzfView_pulseStage k n hnext, h.view]
    | bytes src next => exact byteStage_alike src next h
    | terminal => exact ⟨h.source, congrArg (fun e : Enc => { e with period := 0 }) h.view⟩
  exact ⟨hkeys.1, hkeys.2, fun i => by
    rw [memRead_congr hframe'.hdr hframe'.freeCtr, memRead_congr hframe.hdr hframe.freeCtr, h.header]⟩

/-- After a successful MZF_INIT two machines are alike; after one that failed both are terminal. -/
theorem exec_mzfInit_alike {s s' t t' : State} (ht : exec .mzfInit s = .next t) (ht' : exec .mzfInit s' = .next t')
    (h : s'.source = s.source) : MzfAlike t t' ∨ (t.enc.mstage = 16 ∧ t'.enc.mstage = 16) := by
  obtain ⟨hseek, rfl⟩ | ⟨bs, src, hseek, htake, hs⟩ := exec_mzfInit_cases ht <;>
    obtain ⟨hseek', rfl⟩ | ⟨bs', src', hseek', htake', hs'⟩ := exec_mzfInit_cases ht' <;>
      rw [h] at hseek'
  · exact .inr ⟨rfl, rfl⟩
  · exact absurd (hseek.symm.trans hseek') (by decide)
  · exact absurd (hseek.symm.trans hseek') (by decide)
  · rw [h] at htake'
    obtain ⟨rfl, rfl⟩ := Prod.mk.inj (htake.symm.trans htake')
    obtain ⟨hlt, rfl⟩ | ⟨hlen, rfl⟩ := hs <;> obtain ⟨hlt', rfl⟩ | ⟨hlen', rfl⟩ := hs'
    · exact .inr ⟨rfl, rfl⟩
    · omega
    · omega
    · have hread := memRead_headerRead hlen src s
      have hread' := memRead_headerRead hlen src s'
      have hsource (u : State) : (mzfInitSucceed (headerRead bs src u)).source = src := rfl
      refine .inl ⟨(hsource s').trans (hsource s).symm, ?_,
        fun i => Option.some.inj ((hread' i).trans (hread i).symm)⟩
      have hhcs : ckHdr (headerRead bs src s') = ckHdr (headerRead bs src s) := by
        rw [ckHdr, ckHdr, headerBytes_eq hlen hread, headerBytes_eq hlen hread']
      have hblen : bodyLength (headerRead bs src s') = bodyLength (headerRead bs src s) := by
        rw [bodyLength_eq hread, bodyLength_eq hread']
      simp only [mzfInitSucceed, mapEnc_enc, mzfView, hhcs, hblen]
      rfl

/-- The MZF half of O53: the INITs leave the two machines alike, or both terminal, and the ticks keep them so. -/
theorem mzfWave_of_source {s s' t t' u u' : State} {n : Nat} {ps ps' : List Period} (h : s'.source = s.source)
    (ht : exec .mzfInit s = .next t) (ht' : exec .mzfInit s' = .next t')
    (hrun : repeatExec .mzfTick n t = .next (ps, u)) (hrun' : repeatExec .mzfTick n t' = .next (ps', u')) :
    ps' = ps := by
  refine repeatExec_lockstep (R := fun s s' => MzfAlike s s' ∨ (s.enc.mstage = 16 ∧ s'.enc.mstage = 16))
    (fun {v v' w w'} hw hw' hR => ?_) hrun hrun' (exec_mzfInit_alike ht ht' h)
  obtain halike | ⟨hm, hm'⟩ := hR
  · have hnext := exec_mzfTick_alike hw hw' halike
    exact ⟨.inl hnext, (congrArg Enc.period hnext.view :)⟩
  · have h16 : 14 ≤ (16 : BitVec 5).toNat := by decide
    rw [exec_mzfTick, hm, runMzfRow_of_terminal h16] at hw
    rw [exec_mzfTick, hm', runMzfRow_of_terminal h16] at hw'
    cases hw
    cases hw'
    exact ⟨.inr ⟨hm, hm'⟩, rfl⟩

/-! ### CAQ -/

/-- The registers a CAQ tick looks at, the others cleared; `CUR` counts with a byte in progress. -/
def caqView (e : Enc) : Enc :=
  { e with
    cur := if e.loaded then e.cur else 0
    mstage := 0, lead := false, bmask := 0, hcs := 0, fcs := 0, blen := 0, cnt := 0, hdr := [], savedBaud := 0,
    ovr := false, blockId := 0, task := 0 }

theorem caqBit_view {e : Enc} (hl : e.loaded = true) (st : BitVec 3) : caqBit st (caqView e) = caqBit st e := by
  have hcur : (caqView e).cur = e.cur := if_pos hl
  simp only [caqBit, caqDataBit, hcur]
  rfl

theorem caqView_advance (st : BitVec 3) {e : Enc} (hl : e.loaded = true) :
    caqView (caqAdvance st e) = caqView (caqAdvance st (caqView e)) := by
  have hbidx : (caqView e).bidx = e.bidx := rfl
  unfold caqAdvance
  rw [hbidx]
  split_ifs <;> simp [caqView, hl]

theorem caqView_emit (st : BitVec 3) {e : Enc} (hl : e.loaded = true) :
    caqView (caqEmit st e) = caqView (caqEmit st (caqView e)) := by
  have hbit := caqBit_view hl st
  cases hp : e.phalf with
  | false => rw [caqEmit_up st hp, caqEmit_up st (e := caqView e) hp, hbit]; simp [caqView, hl]
  | true =>
    cases hc : e.ccyc with
    | false => rw [caqEmit_first_down st hp hc, caqEmit_first_down st (e := caqView e) hp hc, hbit]; simp [caqView, hl]
    | true =>
      rw [caqEmit_second_down st hp hc, caqEmit_second_down st (e := caqView e) hp hc, hbit]
      exact caqView_advance st hl

/-- Two states that a CAQ tick does not tell apart. -/
structure CaqAlike (s t : State) : Prop where
  source : t.source = s.source
  view : caqView t.enc = caqView s.enc

theorem caqExhausted_source (s : State) : (caqExhausted s).source = s.source := by
  simp only [caqExhausted, enterTerminal, mapEnc_source, baudRestore_source]; rfl

theorem caqExhausted_enc (s : State) :
    (caqExhausted s).enc = { s.enc with cstage := 4, ovr := false, task := 2, period := 0 } := enterTerminal_caq_enc _

theorem caqView_load (b : Byte) (e : Enc) : caqView (loadCaqByte b e) = loadCaqByte b (caqView e) := rfl

/-- Alike states emit alike, and read the same answer of their source. -/
theorem caqStageTick_alike (st : BitVec 3) {s t : State} (h : CaqAlike s t) :
    CaqAlike (caqStageTick st s) (caqStageTick st t) := by
  have hloaded : t.enc.loaded = s.enc.loaded := (congrArg Enc.loaded h.view :)
  cases hl : s.enc.loaded with
  | true =>
    have hl' := hloaded.trans hl
    rw [caqStageTick_of_loaded st hl, caqStageTick_of_loaded st hl']
    refine ⟨h.source, ?_⟩
    rw [mapEnc_enc, mapEnc_enc, caqView_emit st hl, caqView_emit st hl', h.view]
  | false =>
    have hl' := hloaded.trans hl
    have hread : t.source.read = s.source.read := by rw [h.source]
    cases hr : s.source.read with
    | mk a src =>
      cases a with
      | some b =>
        rw [caqStageTick_load st hl hr, caqStageTick_load st hl' (hread.trans hr)]
        refine ⟨rfl, ?_⟩
        have hload (e : Enc) : (loadCaqByte b e).loaded = true := rfl
        simp only [mapEnc_enc, addEvent_enc, setSource_enc]
        rw [caqView_emit _ (hload _), caqView_emit _ (hload _), caqView_load, caqView_load, h.view]
      | none =>
        rw [caqStageTick_exhaust st hl hr, caqStageTick_exhaust st hl' (hread.trans hr)]
        refine ⟨by rw [caqExhausted_source, caqExhausted_source]; rfl, ?_⟩
        rw [caqExhausted_enc, caqExhausted_enc]
        exact congrArg (fun e : Enc => { e with cstage := 4, period := 0 }) h.view

theorem exec_caqTick_alike {s s' t t' : State} (ht : exec .caqTick s = .next t) (ht' : exec .caqTick s' = .next t')
    (h : CaqAlike s s') : CaqAlike t t' := by
  have hstage : s'.enc.cstage = s.enc.cstage := (congrArg Enc.cstage h.view :)
  obtain ⟨hlive, rfl⟩ | ⟨hdone, rfl⟩ := exec_caqTick_cases ht <;>
    obtain ⟨hlive', rfl⟩ | ⟨hdone', rfl⟩ := exec_caqTick_cases ht' <;> rw [hstage] at *
  · exact caqStageTick_alike _ h
  · omega
  · omega
  · exact ⟨h.source, congrArg (fun e : Enc => { e with period := 0 }) h.view⟩

theorem exec_caqInit_alike {s s' t t' : State} (ht : exec .caqInit s = .next t) (ht' : exec .caqInit s' = .next t')
    (h : s'.source = s.source) : CaqAlike t t' := by
  have hsource (u : State) : (saveBaud u).source = u.source := by
    cases hovr : u.enc.ovr with
    | true => rw [saveBaud_of_ovr hovr]
    | false => rw [saveBaud_of_not_ovr hovr]; rfl
  rw [exec_caqInit] at ht ht'
  cases ht
  cases ht'
  exact ⟨(hsource s').trans (h.trans (hsource s).symm), rfl⟩

/-- The CAQ half of O53: CAQ_INIT leaves the two machines alike, and the ticks keep them so. -/
theorem caqWave_of_source {s s' t t' u u' : State} {n : Nat} {ps ps' : List Period} (h : s'.source = s.source)
    (ht : exec .caqInit s = .next t) (ht' : exec .caqInit s' = .next t')
    (hrun : repeatExec .caqTick n t = .next (ps, u)) (hrun' : repeatExec .caqTick n t' = .next (ps', u')) :
    ps' = ps := by
  refine repeatExec_lockstep (R := CaqAlike) (fun {v v' w w'} hw hw' hR => ?_) hrun hrun' (exec_caqInit_alike ht ht' h)
  have hnext := exec_caqTick_alike hw hw' hR
  exact ⟨hnext, (congrArg Enc.period hnext.view :)⟩

/-- Settles O53, one encoder at a time. -/
theorem waveDependsOnlyOnTheSource : Obligations.WaveDependsOnlyOnTheSource :=
  fun _ _ _ _ _ _ _ _ _ h =>
    ⟨fun ht ht' hrun hrun' => (mzfWave_of_source h.symm ht ht' hrun hrun').symm,
      fun ht ht' hrun hrun' => (caqWave_of_source h.symm ht ht' hrun hrun').symm⟩

end Sys2Proof.Machine
end
